-- ==== Sys2Proof/Word.lean ====
section
/-! DEFINITION. The word types of TCPHS-1 and their plainest arithmetic (00_scope.md R10, R11, R12). -/

namespace Sys2Proof

/-- An 8-bit unsigned value (R11). -/
abbrev Byte := BitVec 8

/-- A 16-bit value: ports, window, checksum, urgent pointer (R10). -/
abbrev Half := BitVec 16

/-- A 32-bit value: sequence and acknowledgment numbers (R10), and every host access (R81). -/
abbrev Word := BitVec 32

/-- `a +32 1` of R12: the successor modulo 2^32. -/
abbrev Word.succ32 (a : Word) : Word := a + 1

end Sys2Proof
end

