-- ==== Sys2Proof/Config.lean ====
section
/-! DEFINITION. The implementation parameters of 00_scope.md R9, which the machine takes as an argument (the field
`params` of State), their values in TCPHS-1, and the free values the spec leaves open (93_implementation_defined.md I1,
I9). -/

namespace Sys2Proof

/-- The four values of the parameter `ACTIVE_PORT_CHECK` (R9, 41_handshake_active.md R208). -/
inductive ActivePortCheck where
  | peerSrc   -- PEER_SRC
  | localDst  -- LOCAL_DST
  | argDst    -- ARG_DST
  | both      -- BOTH
deriving DecidableEq, Repr

/-- The address bits the register map has places for, `ARG_ADDR0` to `ARG_ADDR3` (10_state.md R55). Log entry 6. -/
abbrev Config.addrMapBits : Nat := 128

/-- The session bits the register map has places for, `ARG_SESSION` and `CONN_SESSION` (10_state.md R55). Log entry 6. -/
abbrev Config.sessionMapBits : Nat := 32

/-- The most bytes `RXBUF` can have, the window at `0x300` (20_memory.md R80). -/
abbrev Config.rxWindowBytes : Nat := 256

/-- A receive capacity: a multiple of 4, at least 60 (R9) and at most 256 (20_memory.md R80). -/
abbrev RxCapacity := { n : Nat // n % 4 = 0 ∧ 60 ≤ n ∧ n ≤ Config.rxWindowBytes }

/-- The parameters a block is defined over (R9). The draw of the `ISN` and the answers of the environment, which R9 lists
beside them, are free: `Config.freeIsn`, and the turns of the environment. -/
structure Params where
  /-- `DEFAULT_WINDOW` -/
  defaultWindow : Half
  /-- `PROTO_NUM` -/
  protoNum : Byte
  /-- `ADDR_BITS`, at most the 128 bits of the register map. -/
  addrBits : Fin (Config.addrMapBits + 1)
  /-- `SESSION_BITS`, at most the 32 bits of the register map. -/
  sessionBits : Fin (Config.sessionMapBits + 1)
  /-- `RX_BUF_BYTES` -/
  rxCapacity : RxCapacity
  /-- `ACTIVE_PORT_CHECK` -/
  activePortCheck : ActivePortCheck
deriving DecidableEq, Repr

/-- `RX_BUF_BYTES` as a number. -/
abbrev Params.rxBufBytes (P : Params) : Nat := P.rxCapacity.val

/-- The values TCPHS-1 takes (R9, column "this hardware"). -/
def Params.tcphs1 : Params where
  defaultWindow := 1000
  protoNum := 6
  addrBits := 128
  sessionBits := 32
  rxCapacity := ⟨60, by decide⟩
  activePortCheck := .both

/-- The length of `TXBUF`, 60 bytes (10_state.md R34; no parameter). -/
abbrev Config.txBufBytes : Nat := 60

/-- The hardwired value of `ID` (10_state.md R50). -/
def Config.idValue : Word := 0x54435031

/-- A network address, carried and never interpreted (R9, D11), as the register map holds it: an address of `ADDR_BITS`
bits stands in the low bits, and the bits above are 0. -/
abbrev Addr := BitVec Config.addrMapBits

/-- A session handle, opaque (R9, R18), as the register map holds it: a handle of `SESSION_BITS` bits stands in the low
bits, and the bits above are 0. -/
abbrev Session := BitVec Config.sessionMapBits

/-- FREE VALUE (I1, 20_memory.md R91): the `ISN` draw of the step numbered `tick`, where the environment has
settled none for it. No body: nothing constrains it. Log entry 3. -/
opaque Config.freeIsn : Nat → Word

/-- FREE VALUE (I9, 70_reset_and_hazards.md R349): what the block reads, in the step numbered `tick`, at an
unwritten offset of a buffer (a decode of `RXBUF`). Log entry 4. -/
opaque Config.freeByte : Nat → Nat → Byte

/-- FREE VALUE (I9, 70_reset_and_hazards.md R349): what a host read in the step numbered `tick` returns for a
buffer word with an unwritten byte. Log entry 4. -/
opaque Config.freeWord : Nat → Word

end Sys2Proof
end

