-- ==== Sys2Proof/Machine/State.lean ====
section
/-! DEFINITION. The state of one TCPHS-1 block (10_state.md), with what its two other agents, the host and the
environment, have in hand (10_state.md R30, 20_memory.md R86 to R93). Plain data. -/

namespace Sys2Proof.Machine

/-- A byte buffer: its written offsets and their bytes, offsets strictly rising (`Memory.wf`). An offset not listed
is unwritten, which is the reset state of every byte of `TXBUF` and `RXBUF` (10_state.md R60). -/
abbrev Memory := List Host.Cell

/-- The Segment record (10_state.md R31). -/
structure Segment where
  srcPort  : Half
  dstPort  : Half
  seq      : Word
  ack      : Word
  doff     : BitVec 4
  rsvd     : BitVec 3
  ns       : BitVec 1
  flags    : Byte
  window   : Half
  checksum : Half
  urgent   : Half
  opt      : Vector Byte 40
deriving DecidableEq, Repr

/-- `SEG()` of 00_scope.md R16: every field zero. -/
def Segment.zero : Segment where
  srcPort := 0
  dstPort := 0
  seq := 0
  ack := 0
  doff := 0
  rsvd := 0
  ns := 0
  flags := 0
  window := 0
  checksum := 0
  urgent := 0
  opt := Vector.replicate 40 0

/-- The phases (10_state.md R48). Codes 15 to 31 are never written. -/
inductive Phase where
  | idle
  | cCsumWait
  | aSynCsumWait
  | aSynSendWait
  | aSynackRecvIssue
  | aSynackRecvWait
  | aAckCsumWait
  | aAckSendWait
  | pSynRecvIssue
  | pSynRecvWait
  | pSynackCsumWait
  | pSynackSendWait
  | pAckRecvIssue
  | pAckRecvWait
  | pSessWait
deriving DecidableEq, Repr

/-- `CONN_STATE` (10_state.md R41). Codes 5 to 7 are never written. -/
inductive ConnState where
  | closed
  | listen
  | synSent
  | synReceived
  | established
deriving DecidableEq, Repr

/-- The error kinds of `STATUS.ERR` (60_exceptions.md R300). Codes 9 to 15 are never written. -/
inductive ErrKind where
  | none
  | sendFailure
  | receiveFailure
  | handshakeTimeout
  | malformedSegment
  | sessionOpenFailure
  | badCommand
  | notImplemented
  | badHeaderLength
deriving DecidableEq, Repr

/-- The four external ports (20_memory.md R87 to R90). -/
inductive Port where
  | csum
  | send
  | recv
  | sess
deriving DecidableEq, Repr

/-- A port request with its arguments, copied when it is placed (20_memory.md R87 to R90, 00_scope.md R15). -/
inductive Request where
  | csum (session : Session) (dst : Addr) (proto : Byte) (bytes : List Byte)
  | send (session : Session) (dst : Addr) (proto : Byte) (bytes : List Byte)
  | recv (session : Session) (capacity : Nat)
  | sess (parent : Session) (bindAddr : Addr) (bindPort : Half) (proto : Byte) (peerAddr : Addr) (peerPort : Half)
deriving DecidableEq, Repr

/-- A port response (20_memory.md R87 to R90). The counts `r` are signed 32-bit integers, read by `BitVec.toInt`. -/
inductive Response where
  | csum (c : Half)
  | send (r : Word)
  | recv (r : Word) (bytes : List Byte) (srcAddr : Addr)
  | sess (ok : Bool) (handle : Session)
deriving DecidableEq, Repr

/-- One step of one agent (10_state.md R30, 20_memory.md R100). -/
inductive Turn where
  /-- The host reads the register at word address `a` (20_memory.md R81). -/
  | read (a : BitVec 8)
  /-- The host writes `v` at word address `a` (20_memory.md R81); at the address of `CTRL` this is an instruction. -/
  | write (a : BitVec 8) (v : Word)
  /-- The host polls `STATUS` once for the pseudo-instruction `wait` (30_encoding.md R146). -/
  | wait
  /-- The environment answers the outstanding request (20_memory.md R86). -/
  | respond (r : Response)
  /-- The environment sets the `DEADLINE` level (20_memory.md R92). -/
  | deadline (level : Bool)
  /-- The environment settles the `ISN` draw of the block's next step (20_memory.md R91, 30_encoding.md R145). -/
  | isn (v : Word)
  /-- The environment asserts the hardware reset (70_reset_and_hazards.md R340). -/
  | hardReset
  /-- The block takes its enabled step: an issue step, or the step that consumes a response (20_memory.md R86). -/
  | block
deriving DecidableEq, Repr

/-- The registers the host can address (10_state.md R55). `RXBUF` has as many words as its capacity, at most 64
(20_memory.md R80): `Reg.mapped`, Machine/HostPort.lean. -/
inductive Reg where
  | id
  | ctrl
  | status
  | phase
  | counters
  | argSession
  | argPort
  | argLport
  | argBudget
  | argAddr (k : Fin 4)
  | connStatus
  | connLocalSeq
  | connRemoteAcked
  | connSession
  | isnReg
  | peerIsn
  | peerPort
  | peerAddr (k : Fin 4)
  | txseg (k : Fin 15)
  | rxseg (k : Fin 15)
  | txlen
  | rxlen
  | txbuf (k : Fin 15)
  | rxbuf (k : Fin 64)
deriving DecidableEq, Repr

/-- No behaviour of the block is a fault (93_implementation_defined.md, after I26: "No behaviour of the block is a
`fault`: the block has no traps"), so the type is empty: nothing raises one. Safe: a step always answers a next state. -/
inductive Fault where
deriving DecidableEq, Repr

/-- Why an instruction has no meaning. -/
inductive Refusal where
  /-- The instruction is not modelled. No arm of `exec` raises it: every row of the opcode table has its meaning.
  Safe: a refusal proves nothing about the hardware. -/
  | notModelled (mnemonic : String)
deriving DecidableEq, Repr

/-- The state. `STATUS.BUSY` and `IRQ` are functions of it (10_state.md R47, R52: Machine/Flags.lean); `ID` is hardwired
(R50: Config.lean). -/
structure State where
  -- the parameters the block is defined over (00_scope.md R9): no step changes them (log entry 6)
  params : Params
  -- control state (10_state.md R46, R48)
  phase : Phase
  outreq : Option Request
  response : Option Response
  -- CTRL (R51)
  cmd : BitVec 4
  ie : Bool
  -- STATUS (R52)
  done : Bool
  err : ErrKind
  failState : ConnState
  malformedSeen : Bool
  cmdOverrun : Bool
  wrWhileBusy : Bool
  -- COUNTERS (R45, R53)
  discards : Half
  retryLeft : Half
  -- argument registers (R36)
  argSession : Session
  argAddr : Addr
  argPort : Half
  argLport : Half
  argBudget : Half
  -- Connection registers (R40)
  connState : ConnState
  connValid : Bool
  connLocalSeq : Word
  connRemoteAcked : Word
  connSession : Session
  -- handshake registers (R45)
  isnReg : Word
  peerIsn : Word
  peerPort : Half
  peerAddr : Addr
  -- segment registers and buffers (R32 to R35)
  txseg : Segment
  rxseg : Segment
  txbuf : Memory
  txlen : BitVec 7
  rxbuf : Memory
  rxlen : Half
  -- the environment's inputs: the `DEADLINE` level (20_memory.md R92), and the `ISN` draw of the block's next step where
  -- the environment has settled it (R91, 30_encoding.md R145; log entry 3)
  deadline : Bool
  nextIsn : Option Word
  -- the host: the value its last read returned (20_memory.md R81)
  readData : Word
  -- the model's own: the agents' coming steps, oldest first, and the number of the step (log entries 1, 2)
  schedule : List Turn
  tick : Nat
deriving DecidableEq, Repr

/-- The state right after reset of a block with the parameters `P`: 10_state.md R60 for every register. The
environment's and the host's own fields, which R60 does not list, take the values log entry 5 names. -/
def State.resetOf (P : Params) : State where
  params := P
  phase := .idle
  outreq := none
  response := none
  cmd := 0
  ie := false
  done := false
  err := .none
  failState := .closed
  malformedSeen := false
  cmdOverrun := false
  wrWhileBusy := false
  discards := 0
  retryLeft := 0
  argSession := 0
  argAddr := 0
  argPort := 0
  argLport := 0
  argBudget := 0
  connState := .closed
  connValid := false
  connLocalSeq := 0
  connRemoteAcked := 0
  connSession := 0
  isnReg := 0
  peerIsn := 0
  peerPort := 0
  peerAddr := 0
  txseg := Segment.zero
  rxseg := Segment.zero
  txbuf := []
  txlen := 0
  rxbuf := []
  rxlen := 0
  deadline := false
  nextIsn := none
  readData := 0
  schedule := []
  tick := 0

/-- The state right after reset of TCPHS-1. -/
def State.reset : State := State.resetOf Params.tcphs1

end Sys2Proof.Machine
end

