-- ==== Sys2Proof/Machine/Flags.lean ====
section
/-! DEFINITION. Flags: the codes of the named fields, the derived bits `BUSY` and `IRQ`, the words of the control and status
registers, and the flag predicates of a segment (10_state.md R41, R47 to R53, 30_encoding.md R124, R127,
60_exceptions.md R300). -/

namespace Sys2Proof.Machine

/-- The `PHASE` codes (10_state.md R48). -/
def Phase.code : Phase → BitVec 5
  | .idle => 0
  | .cCsumWait => 1
  | .aSynCsumWait => 2
  | .aSynSendWait => 3
  | .aSynackRecvIssue => 4
  | .aSynackRecvWait => 5
  | .aAckCsumWait => 6
  | .aAckSendWait => 7
  | .pSynRecvIssue => 8
  | .pSynRecvWait => 9
  | .pSynackCsumWait => 10
  | .pSynackSendWait => 11
  | .pAckRecvIssue => 12
  | .pAckRecvWait => 13
  | .pSessWait => 14

/-- The port a phase waits on (10_state.md R48, second column). -/
def Phase.waitsOn : Phase → Option Port
  | .idle => none
  | .cCsumWait => some .csum
  | .aSynCsumWait => some .csum
  | .aSynSendWait => some .send
  | .aSynackRecvIssue => none
  | .aSynackRecvWait => some .recv
  | .aAckCsumWait => some .csum
  | .aAckSendWait => some .send
  | .pSynRecvIssue => none
  | .pSynRecvWait => some .recv
  | .pSynackCsumWait => some .csum
  | .pSynackSendWait => some .send
  | .pAckRecvIssue => none
  | .pAckRecvWait => some .recv
  | .pSessWait => some .sess

/-- The `CONN_STATE` codes (10_state.md R41). -/
def ConnState.code : ConnState → BitVec 3
  | .closed => 0
  | .listen => 1
  | .synSent => 2
  | .synReceived => 3
  | .established => 4

/-- The `ERR` codes (60_exceptions.md R300). -/
def ErrKind.code : ErrKind → BitVec 4
  | .none => 0
  | .sendFailure => 1
  | .receiveFailure => 2
  | .handshakeTimeout => 3
  | .malformedSegment => 4
  | .sessionOpenFailure => 5
  | .badCommand => 6
  | .notImplemented => 7
  | .badHeaderLength => 8

/-- The port of a request. -/
def Request.port : Request → Port
  | .csum _ _ _ _ => .csum
  | .send _ _ _ _ => .send
  | .recv _ _ => .recv
  | .sess _ _ _ _ _ _ => .sess

/-- The port of a response. -/
def Response.port : Response → Port
  | .csum _ => .csum
  | .send _ => .send
  | .recv _ _ _ => .recv
  | .sess _ _ => .sess

/-- `STATUS.BUSY`: 1 while a command is in progress, `PHASE != IDLE` (10_state.md R52). -/
def State.busy (s : State) : Bool := s.phase != .idle

/-- The output level `IRQ = STATUS.DONE and CTRL.IE` (10_state.md R47, 60_exceptions.md R312). -/
def State.irq (s : State) : Bool := s.done && s.ie

/-- The `CTRL` word a read returns; `GO` and `SRST` read 0 (10_state.md R51). -/
def State.ctrlWord (s : State) : Word :=
  0#26 ++ BitVec.ofBool s.ie ++ 0#1 ++ s.cmd

/-- The `STATUS` word (10_state.md R52). -/
def State.statusWord (s : State) : Word :=
  0#13 ++ BitVec.ofBool s.wrWhileBusy ++ BitVec.ofBool s.cmdOverrun ++ BitVec.ofBool s.malformedSeen
    ++ 0#5 ++ s.failState.code ++ s.err.code ++ 0#2 ++ BitVec.ofBool s.done ++ BitVec.ofBool s.busy

/-- The `PHASE` word (10_state.md R53). -/
def State.phaseWord (s : State) : Word := 0#27 ++ s.phase.code

/-- The `COUNTERS` word (10_state.md R53). -/
def State.countersWord (s : State) : Word := s.retryLeft ++ s.discards

/-- The `CONN_STATUS` word: `CONN_STATE` in 2:0, `CONN_VALID` in 8 (10_state.md R55). -/
def State.connStatusWord (s : State) : Word :=
  0#23 ++ BitVec.ofBool s.connValid ++ 0#5 ++ s.connState.code

/-! The flag constants and predicates of a segment. -/

/-- `FIN = 0x01` (30_encoding.md R124). -/
def flagFIN : Byte := 0x01
/-- `SYN = 0x02`. -/
def flagSYN : Byte := 0x02
/-- `RST = 0x04`. -/
def flagRST : Byte := 0x04
/-- `PSH = 0x08`. -/
def flagPSH : Byte := 0x08
/-- `ACK = 0x10`. -/
def flagACK : Byte := 0x10

/-- `is_syn_ack(d)` (30_encoding.md R127). -/
def isSynAck (d : Segment) : Bool := d.flags.getLsbD 1 && d.flags.getLsbD 4

/-- `is_pure_syn(d)` (30_encoding.md R127). -/
def isPureSyn (d : Segment) : Bool := d.flags.getLsbD 1 && !d.flags.getLsbD 4

/-- `is_pure_ack(d)` (30_encoding.md R127). -/
def isPureAck (d : Segment) : Bool := d.flags.getLsbD 4 && !d.flags.getLsbD 1

/-- A result `r` of a port that is a failure, `r <= 0` on the signed value (20_memory.md R88, R89). -/
def nonPositive (r : Word) : Bool := decide (r.toInt ≤ 0)

end Sys2Proof.Machine
end

