-- ==== Sys2Proof/Machine/Operands.lean ====
section
/-! DEFINITION. Operand forms: network byte order (00_scope.md R13), the word views of a segment register (10_state.md R57),
the word views of an address register (R55), values of the parametric widths (R9). -/

namespace Sys2Proof.Machine

/-- The byte at offset `o` of a byte string; only offsets below the length are ever asked for. -/
def byteAt (b : List Byte) (o : Nat) : Byte := b.getD o 0

/-- `be16(b, o)` (00_scope.md R13). -/
def be16 (b : List Byte) (o : Nat) : Half := byteAt b o ++ byteAt b (o + 1)

/-- `be32(b, o)` (00_scope.md R13). -/
def be32 (b : List Byte) (o : Nat) : Word :=
  byteAt b o ++ byteAt b (o + 1) ++ byteAt b (o + 2) ++ byteAt b (o + 3)

/-- The two bytes `put16` writes, lowest offset first (00_scope.md R13). -/
def put16 (v : Half) : List Byte := [v.extractLsb' 8 8, v.extractLsb' 0 8]

/-- The four bytes `put32` writes, lowest offset first (00_scope.md R13). -/
def put32 (v : Word) : List Byte :=
  [v.extractLsb' 24 8, v.extractLsb' 16 8, v.extractLsb' 8 8, v.extractLsb' 0 8]

/-- The option bytes a word view shows: `opt[j]` to `opt[j+3]` (10_state.md R57). -/
def optWord (S : Segment) (j : Nat) : Word := be32 S.opt.toList j

/-- The word view `Xk` of a segment register (10_state.md R57). -/
def viewWord (S : Segment) (k : Fin 15) : Word :=
  if k.val = 0 then S.srcPort ++ S.dstPort
  else if k.val = 1 then S.seq
  else if k.val = 2 then S.ack
  else if k.val = 3 then S.doff ++ S.rsvd ++ S.ns ++ S.flags ++ S.window
  else if k.val = 4 then S.checksum ++ S.urgent
  else optWord S (4 * (k.val - 5))

/-- The option bytes after a write of `v` to the view of `opt[j]` to `opt[j+3]`. -/
def setOptWord (opt : Vector Byte 40) (j : Nat) (v : Word) : Vector Byte 40 :=
  Vector.ofFn fun i => if j ≤ i.val ∧ i.val < j + 4 then byteAt (put32 v) (i.val - j) else opt[i]

/-- A host write of the value `v` to the view `Xk` (10_state.md R57): the fields of the view, by the same split. -/
def setView (S : Segment) (k : Fin 15) (v : Word) : Segment :=
  if k.val = 0 then { S with srcPort := v.extractLsb' 16 16, dstPort := v.extractLsb' 0 16 }
  else if k.val = 1 then { S with seq := v }
  else if k.val = 2 then { S with ack := v }
  else if k.val = 3 then
    { S with
      doff := v.extractLsb' 28 4, rsvd := v.extractLsb' 25 3, ns := v.extractLsb' 24 1
      flags := v.extractLsb' 16 8, window := v.extractLsb' 0 16 }
  else if k.val = 4 then { S with checksum := v.extractLsb' 16 16, urgent := v.extractLsb' 0 16 }
  else { S with opt := setOptWord S.opt (4 * (k.val - 5)) v }

/-- The `ADDR_BITS` bits of an address: a port and a register of a block have no more (00_scope.md R9). -/
def keepAddr (P : Params) (a : Addr) : Addr := (a.setWidth P.addrBits.val).setWidth Config.addrMapBits

/-- The `SESSION_BITS` bits of a session handle (00_scope.md R9). -/
def keepSession (P : Params) (h : Session) : Session := (h.setWidth P.sessionBits.val).setWidth Config.sessionMapBits

/-- Word `k` of an address register: bits `[127-32k : 96-32k]` (10_state.md R55). -/
def addrWord (a : Addr) (k : Fin 4) : Word := a.extractLsb' (96 - 32 * k.val) 32

/-- An address register after a write of `v` to its word `k` (10_state.md R55). -/
def setAddrWord (a : Addr) (k : Fin 4) (v : Word) : Addr :=
  (if k = 0 then v else addrWord a 0) ++ (if k = 1 then v else addrWord a 1)
    ++ (if k = 2 then v else addrWord a 2) ++ (if k = 3 then v else addrWord a 3)

end Sys2Proof.Machine
end

