-- ==== Sys2Proof/Machine/Ops.lean ====
section
/-! DEFINITION. The shared operations: reads and writes of a byte buffer, the port and draw primitives (00_scope.md R15), the
prologue of a command, the ways a command ends (60_exceptions.md R305 to R307, which are the block's whole error entry:
it has no traps), the receive store and the discard (R308, R309), and the reset (10_state.md R60). -/

namespace Sys2Proof.Machine

/-! ## Byte buffers -/

/-- Reading one byte: `none` where nothing has been written since reset (10_state.md R60). -/
def Memory.read : Memory → Nat → Option Byte
  | [], _ => none
  | (b, v) :: rest, a => if a = b then some v else Memory.read rest a

/-- Writing one byte, keeping the offsets strictly rising. -/
def Memory.write : Memory → Nat → Byte → Memory
  | [], a, v => [(a, v)]
  | (b, w) :: rest, a, v =>
    if a < b then (a, v) :: (b, w) :: rest
    else if a = b then (a, v) :: rest
    else (b, w) :: Memory.write rest a v

/-- Writing a byte string from offset `a` on. -/
def Memory.writeBytes : Memory → Nat → List Byte → Memory
  | m, _, [] => m
  | m, a, v :: vs => Memory.writeBytes (Memory.write m a v) (a + 1) vs

/-- The canonical form: offsets strictly rising. Every listed entry differs from what an unlisted offset reads as, since
an unlisted offset is unwritten. -/
def Memory.wf : Memory → Bool
  | [] => true
  | (a, _) :: rest => rest.all (fun c => decide (a < c.1)) && Memory.wf rest

/-- Every written offset is below `n`. -/
def Memory.below (n : Nat) (m : Memory) : Bool := m.all fun c => decide (c.1 < n)

/-- `be32` of a buffer at offset `a`, where all four bytes are written. -/
def Memory.readWord (m : Memory) (a : Nat) : Option Word :=
  match Memory.read m a, Memory.read m (a + 1), Memory.read m (a + 2), Memory.read m (a + 3) with
  | some b0, some b1, some b2, some b3 => some (b0 ++ b1 ++ b2 ++ b3)
  | _, _, _, _ => none

/-- The first `n` bytes of a buffer as the step numbered `tick` reads them: an unwritten byte is a free value
(70_reset_and_hazards.md R349). -/
def Memory.prefixBytes (m : Memory) (n tick : Nat) : List Byte :=
  (List.range n).map fun o => (Memory.read m o).getD (Config.freeByte tick o)

/-! ## Ports and draws -/

/-- `request P(args)` (00_scope.md R15, 20_memory.md R86); the rule that makes it also names the next phase. -/
def request (q : Request) (s : State) : State := { s with outreq := some q, response := none }

/-- `OUTREQ <- NONE`; no response exists without an outstanding request (20_memory.md R86). -/
def clearPort (s : State) : State := { s with outreq := none, response := none }

/-- The value of the step's `ISN` draw: the one the environment has settled for this step (30_encoding.md R145), else a
free value (20_memory.md R91). -/
def isnDraw (s : State) : Word :=
  match s.nextIsn with
  | some v => v
  | none => Config.freeIsn s.tick

/-- `ISN_REG <- draw ISN` (41_handshake_active.md R201, 42_handshake_passive.md R246). -/
def drawIsn (s : State) : State := { s with isnReg := isnDraw s }

/-- The end of a step of the block: a draw settled for it is not one of any later step, whether the step drew or not
(30_encoding.md R145, "the `ISN` draw of the next step is `V`"). Log entry 3. -/
def endStep (s : State) : State := { s with nextIsn := none }

/-! ## The start and the end of a command -/

/-- The prologue of `start_command` (20_memory.md R82). -/
def prologue (s : State) : State := { s with done := false, err := .none, failState := .closed, discards := 0 }

/-- `finish_ok()` (60_exceptions.md R305). -/
def finishOk (s : State) : State :=
  { s with outreq := none, response := none, phase := .idle, err := .none, failState := .closed, done := true }

/-- `fail(E)` (60_exceptions.md R306). -/
def fail (e : ErrKind) (s : State) : State :=
  { s with
    failState := s.connState, connState := .closed, connValid := false
    outreq := none, response := none, phase := .idle, err := e, done := true }

/-- `end_codec(E)` (60_exceptions.md R307). -/
def endCodec (e : ErrKind) (s : State) : State :=
  { s with outreq := none, response := none, phase := .idle, err := e, failState := .closed, done := true }

/-- A `CTRL` write with `GO = 1` and the code `cmd`, `SRST = 0` (20_memory.md R82): `IE` is stored; while `BUSY` the
command is refused and `CMD_OVERRUN` set; otherwise `CMD` is stored, and the prologue and the start rule run, which is a
step of the block. -/
def issue (cmd : BitVec 4) (ie : Bool) (start : State → State) (s : State) : State :=
  let s := { s with ie := ie }
  if s.busy then { s with cmdOverrun := true } else endStep (start (prologue { s with cmd := cmd }))

/-! ## The receive loop -/

/-- `RXLEN` for a result `r > 0`: `min(r, RX_BUF_BYTES)` (60_exceptions.md R308). -/
def rxCount (P : Params) (r : Word) : Nat := min r.toNat P.rxBufBytes

/-- `rx_store(r, bytes)` (60_exceptions.md R308). -/
def rxStore (r : Word) (bytes : List Byte) (s : State) : State :=
  { s with
    rxlen := BitVec.ofNat 16 (rxCount s.params r)
    rxbuf := Memory.writeBytes s.rxbuf 0 (bytes.take (rxCount s.params r)) }

/-- The valid bytes of `RXBUF`, offsets 0 to `RXLEN`-1, as a decode reads them. -/
def rxValid (s : State) : List Byte := Memory.prefixBytes s.rxbuf s.rxlen.toNat s.tick

/-- The bytes of the encoded segment, `TXBUF[0 .. TXLEN-1]`, as a send request copies them. -/
def txValid (s : State) : List Byte := Memory.prefixBytes s.txbuf s.txlen.toNat s.tick

/-- `DISCARDS` after one more discard, saturating at 0xFFFF (60_exceptions.md R309). -/
def nextDiscards (d : Half) : Half := if d = 0xFFFF then 0xFFFF else d + 1

/-- `discard(next)` (60_exceptions.md R309). -/
def discard (next : Phase) (s : State) : State :=
  let s := { s with discards := nextDiscards s.discards }
  if s.retryLeft = 0 then fail .handshakeTimeout s
  else { s with retryLeft := s.retryLeft - 1, phase := next }

/-! ## Reset -/

/-- The reset of the block, hardware or soft (10_state.md R60, 43_extension_points.md R286, 70_reset_and_hazards.md R340):
every register of R60 takes its reset value and the outstanding request is dropped (R342). What belongs to the
environment and the host, the parameters, and the model's own fields, stay. -/
def resetBlock (s : State) : State :=
  { State.resetOf s.params with
    deadline := s.deadline, readData := s.readData, schedule := s.schedule, tick := s.tick }

end Sys2Proof.Machine
end

