-- ==== Sys2Proof/Machine/Environment.lean ====
section
/-! DEFINITION. The environment's steps: answering the outstanding request, the `DEADLINE` level, the `ISN` draw, the
hardware reset (20_memory.md R86 to R93, 70_reset_and_hazards.md R340). -/

namespace Sys2Proof.Machine

/-- A response of the right shape (20_memory.md R89, R93): a `RECV` response carries `min(r, RX_BUF_BYTES)` bytes when
`r > 0` and none otherwise. The other ports have no shape beyond their types. -/
def Response.shapeOk (P : Params) : Response → Bool
  | .csum _ => true
  | .send _ => true
  | .recv r bytes _ => bytes.length == if nonPositive r then 0 else rxCount P r
  | .sess _ _ => true

/-- A response as the port of a block carries it: an address has `ADDR_BITS` bits and a handle `SESSION_BITS`
(20_memory.md R89, R90, 00_scope.md R9). -/
def Response.keep (P : Params) : Response → Response
  | .csum c => .csum c
  | .send r => .send r
  | .recv r bytes a => .recv r bytes (keepAddr P a)
  | .sess ok h => .sess ok (keepSession P h)

/-- A response the environment may deliver now: one of the right shape, for the port of the outstanding request, which
has not been answered yet (20_memory.md R86). -/
def canAnswer (r : Response) (s : State) : Bool :=
  r.shapeOk s.params && s.response.isNone && s.outreq.map Request.port == some r.port

/-- The environment's answer (20_memory.md R86). A response that no request is waiting for does not exist, and delivers
nothing (log entry 2). -/
def deliver (r : Response) (s : State) : State :=
  if canAnswer r s then { s with response := some (r.keep s.params) } else s

/-- The environment sets `DEADLINE` (20_memory.md R92). -/
def setDeadline (level : Bool) (s : State) : State := { s with deadline := level }

/-- The environment settles the `ISN` draw of the block's next step, in the place of one it settled before (20_memory.md
R91, 30_encoding.md R145). -/
def supplyIsn (v : Word) (s : State) : State := { s with nextIsn := some v }

/-- The environment asserts the hardware reset (70_reset_and_hazards.md R340). -/
def hardReset (s : State) : State := resetBlock s

end Sys2Proof.Machine
end

