-- ==== Sys2Proof/Machine/HostProgram.lean ====
section
/-! DEFINITION. The host-program notation of 30_encoding.md R145 and R146, and the agents' steps a line stands for. -/

namespace Sys2Proof.Machine

/-- The mnemonics of 30_encoding.md R141. -/
inductive Mnemonic where
  | ENCODE
  | DECODE
  | CSUM
  | CONNECT
  | LISTEN
  | SEND
  | RECEIVE
  | CLOSE
deriving DecidableEq, Repr

/-- `code(M)` (30_encoding.md R141). -/
def Mnemonic.code : Mnemonic → BitVec 4
  | .ENCODE => 0x1
  | .DECODE => 0x2
  | .CSUM => 0x3
  | .CONNECT => 0x4
  | .LISTEN => 0x5
  | .SEND => 0x8
  | .RECEIVE => 0x9
  | .CLOSE => 0xA

/-- One line of a host program (30_encoding.md R145). -/
inductive Line where
  | wr (off : Nat) (v : Word)
  | rd (off : Nat)
  | go (m : Mnemonic) (ie : Bool)
  | wait
  | clr
  | srst
  | env (r : Response)
  | envIsn (v : Word)
  | envDeadline (level : Bool)
deriving DecidableEq, Repr

/-- The value a `go` line writes to `CTRL`: `0x10 | code(M)`, or `0x30 | code(M)` (30_encoding.md R146). -/
def goValue (m : Mnemonic) (ie : Bool) : Word :=
  (if ie then 0x30#32 else 0x10#32) ||| m.code.setWidth 32

/-- The word address of a byte offset (20_memory.md R81). -/
def wordAddr (off : Nat) : BitVec 8 := BitVec.ofNat 8 (off / 4)

/-- The steps of a line (30_encoding.md R145, R146). A host or environment line is followed by the block's enabled
steps: after an answer that is the step that consumes it and then an issue step, where there is one
(95_test_vectors.md, Conventions, "Schedule"). -/
def Line.turns : Line → List Turn
  | .wr off v => [.write (wordAddr off) v, .block]
  | .rd off => [.read (wordAddr off)]
  | .go m ie => [.write (wordAddr 0x004) (goValue m ie), .block]
  | .wait => [.wait]
  | .clr => [.write (wordAddr 0x008) 0x2]
  | .srst => [.write (wordAddr 0x004) 0x80000000]
  | .env r => [.respond r, .block, .block]
  | .envIsn v => [.isn v]
  | .envDeadline level => [.deadline level]

/-- The steps of a program. -/
def assemble (p : List Line) : List Turn := p.flatMap Line.turns

end Sys2Proof.Machine
end

