-- ==== Sys2Proof/Syntax.lean ====
section
/-! DEFINITION. The commands of TCPHS-1: one constructor for each row of spec/opcode_table.json (30_encoding.md R140,
R141, R143). An instruction is one 32-bit write of `CTRL`. -/

namespace Sys2Proof

/-- The block's commands (`GO = 1`) and control actions. `ie` is bit 5 of the word, which every `CTRL` write
without `SRST` stores (R140). Bits 30:6 are ignored (R140) and are no operand. A word with `SRST = 1` has no
operand, since bits 5:0 then do nothing (R140, R143). -/
inductive Instr where
  | encode   (ie : Bool)   -- 0x1 ENCODE   40_codec.md R162
  | decode   (ie : Bool)   -- 0x2 DECODE   40_codec.md R165
  | csum     (ie : Bool)   -- 0x3 CSUM     40_codec.md R171
  | connect  (ie : Bool)   -- 0x4 CONNECT  41_handshake_active.md R200
  | listen   (ie : Bool)   -- 0x5 LISTEN   42_handshake_passive.md R240
  | send     (ie : Bool)   -- 0x8 SEND     43_extension_points.md R281
  | receive  (ie : Bool)   -- 0x9 RECEIVE  43_extension_points.md R282
  | close    (ie : Bool)   -- 0xA CLOSE    43_extension_points.md R283
  | illegal0 (ie : Bool)   -- 0x0          43_extension_points.md R284
  | illegal6 (ie : Bool)
  | illegal7 (ie : Bool)
  | illegalB (ie : Bool)
  | illegalC (ie : Bool)
  | illegalD (ie : Bool)
  | illegalE (ie : Bool)
  | illegalF (ie : Bool)
  | srst                                      -- SRST      43_extension_points.md R286
  | ctrlSet  (cmd : BitVec 4) (ie : Bool)     -- CTRL_SET  43_extension_points.md R285
deriving DecidableEq, Repr

end Sys2Proof
end

