-- ==== Sys2Proof/WellFormed.lean ====
section
/-! DEFINITION. Well-formedness of what a program is written in. -/

namespace Sys2Proof

/-- Every term of `Instr` is well-formed: a code is four bits and `IE` one, by their types, and 30_encoding.md R142 gives every
code a command or an error (R144). -/
def Instr.wf : Instr → Bool
  | .encode _ | .decode _ | .csum _ | .connect _ | .listen _ | .send _ | .receive _ | .close _ => true
  | .illegal0 _ | .illegal6 _ | .illegal7 _ | .illegalB _ | .illegalC _ | .illegalD _ | .illegalE _ | .illegalF _ => true
  | .srst | .ctrlSet _ _ => true

/-- A segment has an encoding: `doff >= 5` (10_state.md R31). -/
def Machine.Segment.wf (S : Machine.Segment) : Bool := decide (5 ≤ S.doff.toNat)

/-- The option bytes past the header are zero, as a decode leaves them (40_codec.md R167, D47). -/
def Machine.Segment.trimmed (S : Machine.Segment) : Bool :=
  (S.opt.toList.drop (4 * (S.doff.toNat - 5))).all (· == 0)

/-- A byte offset the host port has: a multiple of 4 from 0x000 to 0x3FC (20_memory.md R80, R81). -/
def offsetOk (off : Nat) : Bool := off % 4 == 0 && decide (off ≤ 0x3FC)

/-- A host-program line: its offset is a word offset, its response has the right shape (30_encoding.md R145, 20_memory.md R89). -/
def Machine.Line.wf (P : Params) : Machine.Line → Bool
  | .wr off _ => offsetOk off
  | .rd off => offsetOk off
  | .env r => r.shapeOk P
  | .go _ _ | .wait | .clr | .srst | .envIsn _ | .envDeadline _ => true

end Sys2Proof
end

