-- ==== Sys2Proof/Decode.lean ====
section
/-! DEFINITION. The decoder and the encoder of the command word (30_encoding.md R140 to R144). The word travels as one
32-bit write (20_memory.md R81, R97): it has no bytes and no byte order of its own, so the decoder takes a host
write, the word address and the 32-bit value. -/

namespace Sys2Proof

/-- The word address of `CTRL`, byte offset 0x004 (10_state.md R55). -/
def ctrlAddr : BitVec 8 := 1

/-- The command with code `c` (30_encoding.md R141, R142). -/
def commandOf (c : BitVec 4) (ie : Bool) : Instr :=
  if c = 0x0 then .illegal0 ie
  else if c = 0x1 then .encode ie
  else if c = 0x2 then .decode ie
  else if c = 0x3 then .csum ie
  else if c = 0x4 then .connect ie
  else if c = 0x5 then .listen ie
  else if c = 0x6 then .illegal6 ie
  else if c = 0x7 then .illegal7 ie
  else if c = 0x8 then .send ie
  else if c = 0x9 then .receive ie
  else if c = 0xA then .close ie
  else if c = 0xB then .illegalB ie
  else if c = 0xC then .illegalC ie
  else if c = 0xD then .illegalD ie
  else if c = 0xE then .illegalE ie
  else .illegalF ie

/-- The instruction a `CTRL` word is: `SRST` (bit 31) first, then `GO` (bit 4) with the code in bits 3:0, and
otherwise a `CTRL` write without a command (20_memory.md R82, 30_encoding.md R140, R143, R144). Every word is one. -/
def decodeWord (w : Word) : Instr :=
  if w.getLsbD 31 then .srst
  else if w.getLsbD 4 then commandOf (w.extractLsb' 0 4) (w.getLsbD 5)
  else .ctrlSet (w.extractLsb' 0 4) (w.getLsbD 5)

/-- Why a host write is no instruction. -/
inductive DecodeError where
  /-- The write is not of `CTRL`: a plain register write (20_memory.md R83, R84), no command. -/
  | notCtrl (a : BitVec 8)
deriving DecidableEq, Repr

/-- Decoding a host write of the value `v` at the word address `a`. -/
def decode (a : BitVec 8) (v : Word) : Except DecodeError Instr :=
  if a = ctrlAddr then .ok (decodeWord v) else .error (.notCtrl a)

/-- The host's question: the instruction read from the table word `w` of `nbits` bits. A command word is one 32-bit
word, so the bits are those of `CTRL`; what does not fit `nbits` bits, or more than 32 bits, is refused. -/
def decodeTableWord (nbits w : Nat) : Option Instr :=
  if nbits ≤ 32 ∧ w < 2 ^ nbits then
    match decode ctrlAddr (BitVec.ofNat 32 w) with
    | .ok i => some i
    | .error _ => none
  else none

/-! The encoder, written from the table of R140 and R141. -/

/-- The 32-bit word of a command: `CMD` 3:0, `GO` 4, `IE` 5, reserved bits 30:6 zero, `SRST` 31 zero (R140). -/
def goWord (code : BitVec 4) (ie : Bool) : Word :=
  0#26 ++ BitVec.ofBool ie ++ 1#1 ++ code

/-- The word of an instruction (R140, R141, R143, 43_extension_points.md R285). -/
def encodeWord : Instr → Word
  | .illegal0 ie => goWord 0x0 ie
  | .encode ie => goWord 0x1 ie
  | .decode ie => goWord 0x2 ie
  | .csum ie => goWord 0x3 ie
  | .connect ie => goWord 0x4 ie
  | .listen ie => goWord 0x5 ie
  | .illegal6 ie => goWord 0x6 ie
  | .illegal7 ie => goWord 0x7 ie
  | .send ie => goWord 0x8 ie
  | .receive ie => goWord 0x9 ie
  | .close ie => goWord 0xA ie
  | .illegalB ie => goWord 0xB ie
  | .illegalC ie => goWord 0xC ie
  | .illegalD ie => goWord 0xD ie
  | .illegalE ie => goWord 0xE ie
  | .illegalF ie => goWord 0xF ie
  | .srst => 1#1 ++ 0#31
  | .ctrlSet cmd ie => 0#26 ++ BitVec.ofBool ie ++ 0#1 ++ cmd

/-- The words of an instruction: one (R144). -/
def encode (i : Instr) : List Word := [encodeWord i]

/-- The bits an instruction's table row fixes (spec/opcode_table.json, "mask"). -/
def rowMask : Instr → Word
  | .srst => 0x80000000
  | .ctrlSet _ _ => 0x80000010
  | .illegal0 _ | .encode _ | .decode _ | .csum _ | .connect _ | .listen _ | .illegal6 _ | .illegal7 _
  | .send _ | .receive _ | .close _ | .illegalB _ | .illegalC _ | .illegalD _ | .illegalE _ | .illegalF _ =>
    0x8000001F

/-- The values of those bits (spec/opcode_table.json, "match"). -/
def rowMatch : Instr → Word
  | .encode _ => 0x00000011
  | .decode _ => 0x00000012
  | .csum _ => 0x00000013
  | .connect _ => 0x00000014
  | .listen _ => 0x00000015
  | .send _ => 0x00000018
  | .receive _ => 0x00000019
  | .close _ => 0x0000001A
  | .illegal0 _ => 0x00000010
  | .illegal6 _ => 0x00000016
  | .illegal7 _ => 0x00000017
  | .illegalB _ => 0x0000001B
  | .illegalC _ => 0x0000001C
  | .illegalD _ => 0x0000001D
  | .illegalE _ => 0x0000001E
  | .illegalF _ => 0x0000001F
  | .srst => 0x80000000
  | .ctrlSet _ _ => 0x00000000

end Sys2Proof
end

