-- ==== Sys2Proof/Machine/Codec.lean ====
section
/-! DEFINITION. The segment codec and its commands ENCODE, DECODE and CSUM (40_codec.md). -/

namespace Sys2Proof.Machine

/-! ## The pure functions -/

/-- Byte 12 of a header: `doff ++ rsvd ++ ns` (30_encoding.md R121). -/
def byte12 (S : Segment) : Byte := S.doff ++ S.rsvd ++ S.ns

/-- The header length in bytes, `4*doff` (30_encoding.md R120). -/
def headerLen (S : Segment) : Nat := 4 * S.doff.toNat

/-- `ENCODE_FN(S)` for `S.doff >= 5` (40_codec.md R160): the fields in the order of 30_encoding.md R120, then the
`4*(doff-5)` option bytes. -/
def encodeFn (S : Segment) : List Byte :=
  put16 S.srcPort ++ put16 S.dstPort ++ put32 S.seq ++ put32 S.ack ++ [byte12 S, S.flags]
    ++ put16 S.window ++ put16 S.checksum ++ put16 S.urgent ++ S.opt.toList.take (4 * (S.doff.toNat - 5))

/-- `doff` as a decode reads it, `b[12][7:4]` (40_codec.md R163). -/
def doffOf (b : List Byte) : BitVec 4 := (byteAt b 12).extractLsb' 4 4

/-- The conditions under which a decode is `MALFORMED` (40_codec.md R163, R164). -/
def malformed (b : List Byte) : Bool :=
  decide (b.length < 20) || decide ((doffOf b).toNat < 5) || decide (b.length < 4 * (doffOf b).toNat)

/-- The segment a well-formed header holds (40_codec.md R163); option bytes past the header are 0. -/
def headerOf (b : List Byte) : Segment where
  srcPort := be16 b 0
  dstPort := be16 b 2
  seq := be32 b 4
  ack := be32 b 8
  doff := doffOf b
  rsvd := (byteAt b 12).extractLsb' 1 3
  ns := (byteAt b 12).extractLsb' 0 1
  flags := byteAt b 13
  window := be16 b 14
  checksum := be16 b 16
  urgent := be16 b 18
  opt := Vector.ofFn fun i : Fin 40 =>
    if i.val < 4 * ((doffOf b).toNat - 5) then byteAt b (20 + i.val) else 0

/-- `DECODE_FN(b, n)` (40_codec.md R163), with `b` the `n` valid bytes; `none` is `MALFORMED`. -/
def decodeFn (b : List Byte) : Option Segment := if malformed b then none else some (headerOf b)

/-- `LOAD_RX(d)` (40_codec.md R166). -/
def loadRx (d : Segment) (s : State) : State := { s with rxseg := d }

/-! ## The checksum binding -/

/-- `CKBIND(dst)` for `TXSEG.doff >= 5` (40_codec.md R170). -/
def ckbind (dst : Addr) (s : State) : State :=
  let S := { s.txseg with checksum := 0 }
  request (.csum s.argSession dst s.params.protoNum (encodeFn S))
    { s with
      txseg := S
      txbuf := Memory.writeBytes s.txbuf 0 (encodeFn S)
      txlen := BitVec.ofNat 7 (headerLen S) }

/-- `INSERT_CK(c)` (40_codec.md R173). -/
def insertCk (c : Half) (s : State) : State :=
  { s with
    txseg := { s.txseg with checksum := c }
    txbuf := Memory.writeBytes s.txbuf 16 (put16 c) }

/-- A send request of the encoded segment to `dst` (41_handshake_active.md R203, R212, 42_handshake_passive.md R248). -/
def requestSend (dst : Addr) (s : State) : State :=
  request (.send s.argSession dst s.params.protoNum (txValid s)) s

/-! ## ENCODE -/

/-- The start rule of ENCODE (40_codec.md R162). -/
def startEncode (s : State) : State :=
  if s.txseg.doff.toNat < 5 then endCodec .badHeaderLength s
  else
    finishOk { s with
      txbuf := Memory.writeBytes s.txbuf 0 (encodeFn s.txseg)
      txlen := BitVec.ofNat 7 (headerLen s.txseg) }

/-- ENCODE (40_codec.md R162). -/
def execEncode (ie : Bool) (s : State) : Host.Outcome State Fault Refusal :=
  .next (issue 0x1 ie startEncode s)

/-! ## DECODE -/

/-- The start rule of DECODE (40_codec.md R165). -/
def startDecode (s : State) : State :=
  match decodeFn (rxValid s) with
  | none => endCodec .malformedSegment { s with malformedSeen := true }
  | some d => finishOk (loadRx d s)

/-- DECODE (40_codec.md R165). -/
def execDecode (ie : Bool) (s : State) : Host.Outcome State Fault Refusal :=
  .next (issue 0x2 ie startDecode s)

/-! ## CSUM -/

/-- The start rule of CSUM (40_codec.md R171). -/
def startCsum (s : State) : State :=
  if s.txseg.doff.toNat < 5 then endCodec .badHeaderLength s
  else { ckbind s.argAddr s with phase := .cCsumWait }

/-- CSUM (40_codec.md R171). -/
def execCsum (ie : Bool) (s : State) : Host.Outcome State Fault Refusal :=
  .next (issue 0x3 ie startCsum s)

/-- The response step of CSUM (40_codec.md R172). -/
def csumRespond (c : Half) (s : State) : State := finishOk (insertCk c s)

end Sys2Proof.Machine
end

