-- ==== Sys2Proof/Machine/ReceivePhase.lean ====
section
/-! DEFINITION. The step shapes the two handshakes share: the issue step of a receive phase, the step that consumes a `RECV`
response, and the step that consumes a `SEND` response. -/

namespace Sys2Proof.Machine

/-- An issue step (41_handshake_active.md R205, 42_handshake_passive.md R243, R250): the deadline, then the receive. -/
def issueRecv (wait : Phase) (s : State) : State :=
  if s.deadline then fail .handshakeTimeout s
  else { request (.recv s.argSession s.params.rxBufBytes) s with phase := wait }

/-- A `RECV` response step (41_handshake_active.md R206, 42_handshake_passive.md R244, R251; the order is
60_exceptions.md R314): failure, then malformed, then the match test `matched`, else `accept`. `back` is the issue
phase of the same receive phase. -/
def recvRespond (back : Phase) (matched : Segment → State → Bool) (accept : Segment → State → State)
    (r : Word) (bytes : List Byte) (s : State) : State :=
  if nonPositive r then fail .receiveFailure s
  else
    let s := rxStore r bytes s
    match decodeFn (rxValid s) with
    | none => discard back { s with malformedSeen := true }
    | some d =>
      let s := loadRx d s
      if matched d s then accept d s else discard back s

/-- A `SEND` response step (41_handshake_active.md R204, R213, 42_handshake_passive.md R249). -/
def sendRespond (sent : State → State) (r : Word) (s : State) : State :=
  if nonPositive r then fail .sendFailure s else sent s

end Sys2Proof.Machine
end

