-- ==== Sys2Proof/Machine/ActiveOpen.lean ====
section
/-! DEFINITION. Active open: CONNECT and its steps (41_handshake_active.md). -/

namespace Sys2Proof.Machine

/-- The SYN of active open with sequence number `isn` (41_handshake_active.md R202); `window` is `DEFAULT_WINDOW`. -/
def synSegment (window localPort peerPort : Half) (isn : Word) : Segment :=
  { Segment.zero with
    srcPort := localPort, dstPort := peerPort, seq := isn, ack := 0
    doff := 5, flags := flagSYN, window := window }

/-- The final ACK of active open, built from the accepted SYN-ACK `d` (41_handshake_active.md R210). -/
def ackSegment (window localPort peerPort : Half) (d : Segment) : Segment :=
  { Segment.zero with
    srcPort := localPort, dstPort := peerPort, seq := d.ack, ack := d.seq.succ32
    doff := 5, flags := flagACK, window := window }

/-- `port_ok(d)` under the parameter `chk` (41_handshake_active.md R208). -/
def portOk (chk : ActivePortCheck) (argPort argLport : Half) (d : Segment) : Bool :=
  match chk with
  | .peerSrc => d.srcPort == argPort
  | .localDst => d.dstPort == argLport
  | .argDst => d.dstPort == argPort
  | .both => d.srcPort == argPort && d.dstPort == argLport

/-- `match_synack(d)` (41_handshake_active.md R207). -/
def matchSynack (d : Segment) (s : State) : Bool :=
  isSynAck d && portOk s.params.activePortCheck s.argPort s.argLport d && d.ack == s.isnReg.succ32

/-- The start rule of CONNECT, the GO step (41_handshake_active.md R201, R202). -/
def startConnect (s : State) : State :=
  let s := drawIsn { s with connValid := false, connState := .closed }
  { ckbind s.argAddr { s with txseg := synSegment s.params.defaultWindow s.argLport s.argPort s.isnReg } with
    phase := .aSynCsumWait }

/-- CONNECT (41_handshake_active.md R200): the `CTRL` write. The command's later steps are the block's. -/
def execConnect (ie : Bool) (s : State) : Host.Outcome State Fault Refusal :=
  .next (issue 0x4 ie startConnect s)

/-- Phase `A_SYN_CSUM_WAIT` on `CSUM(c)` (41_handshake_active.md R203). -/
def synCsumRespond (c : Half) (s : State) : State :=
  { requestSend s.argAddr { insertCk c s with connState := .synSent } with phase := .aSynSendWait }

/-- Phase `A_SYN_SEND_WAIT` on `SEND(r)`, `r > 0` (41_handshake_active.md R204). -/
def synSent (s : State) : State := { s with retryLeft := s.argBudget, phase := .aSynackRecvIssue }

/-- `accept_synack(d)` (41_handshake_active.md R209, R210). -/
def acceptSynack (d : Segment) (s : State) : State :=
  { ckbind s.argAddr
      { s with
        peerIsn := d.seq, peerPort := d.srcPort
        txseg := ackSegment s.params.defaultWindow s.argLport s.argPort d } with
    phase := .aAckCsumWait }

/-- Phase `A_SYNACK_RECV_WAIT` on `RECV(r, bytes, src_addr)`; the address is not used (41_handshake_active.md R206). -/
def synackRecvRespond (r : Word) (bytes : List Byte) (_srcAddr : Addr) (s : State) : State :=
  recvRespond .aSynackRecvIssue matchSynack acceptSynack r bytes s

/-- Phase `A_ACK_CSUM_WAIT` on `CSUM(c)` (41_handshake_active.md R212). -/
def ackCsumRespond (c : Half) (s : State) : State :=
  { requestSend s.argAddr (insertCk c s) with phase := .aAckSendWait }

/-- `complete_active()` (41_handshake_active.md R214). -/
def completeActive (s : State) : State :=
  finishOk { s with
    connState := .established, connLocalSeq := s.isnReg, connRemoteAcked := s.peerIsn
    connSession := s.argSession, connValid := true }

end Sys2Proof.Machine
end

