-- ==== Sys2Proof/Machine/PassiveOpen.lean ====
section
/-! DEFINITION. Passive open: LISTEN and its steps (42_handshake_passive.md). -/

namespace Sys2Proof.Machine

/-- The SYN-ACK of passive open, built from the accepted SYN `d` (42_handshake_passive.md R242). -/
def synackSegment (window bindPort : Half) (isn : Word) (d : Segment) : Segment :=
  { Segment.zero with
    srcPort := bindPort, dstPort := d.srcPort, seq := isn, ack := d.seq.succ32
    doff := 5, flags := flagSYN ||| flagACK, window := window }

/-- `match_syn(d)` (42_handshake_passive.md R245). -/
def matchSyn (d : Segment) (s : State) : Bool := isPureSyn d && d.dstPort == s.argPort

/-- `match_ack(d)` (42_handshake_passive.md R252). -/
def matchAck (d : Segment) (s : State) : Bool :=
  isPureAck d && d.dstPort == s.argPort && d.ack == s.isnReg.succ32 && d.seq == s.peerIsn.succ32

/-- The start rule of LISTEN, the GO step (42_handshake_passive.md R241). -/
def startListen (s : State) : State :=
  { s with connValid := false, connState := .listen, retryLeft := s.argBudget, phase := .pSynRecvIssue }

/-- LISTEN (42_handshake_passive.md R240): the `CTRL` write. The command's later steps are the block's. -/
def execListen (ie : Bool) (s : State) : Host.Outcome State Fault Refusal :=
  .next (issue 0x5 ie startListen s)

/-- `accept_syn(d, src_addr)` (42_handshake_passive.md R246). -/
def acceptSyn (srcAddr : Addr) (d : Segment) (s : State) : State :=
  let s := drawIsn { s with peerIsn := d.seq, peerPort := d.srcPort, peerAddr := srcAddr }
  { ckbind s.peerAddr { s with txseg := synackSegment s.params.defaultWindow s.argPort s.isnReg d } with
    phase := .pSynackCsumWait }

/-- Phase `P_SYN_RECV_WAIT` on `RECV(r, bytes, src_addr)` (42_handshake_passive.md R244). -/
def synRecvRespond (r : Word) (bytes : List Byte) (srcAddr : Addr) (s : State) : State :=
  recvRespond .pSynRecvIssue matchSyn (acceptSyn srcAddr) r bytes s

/-- Phase `P_SYNACK_CSUM_WAIT` on `CSUM(c)` (42_handshake_passive.md R248). -/
def synackCsumRespond (c : Half) (s : State) : State :=
  { requestSend s.peerAddr (insertCk c s) with phase := .pSynackSendWait }

/-- Phase `P_SYNACK_SEND_WAIT` on `SEND(r)`, `r > 0` (42_handshake_passive.md R249). -/
def synackSent (s : State) : State :=
  { s with connState := .synReceived, retryLeft := s.argBudget, phase := .pAckRecvIssue }

/-- `accept_ack()` (42_handshake_passive.md R254). -/
def acceptAck (_d : Segment) (s : State) : State :=
  { request (.sess s.argSession s.argAddr s.argPort s.params.protoNum s.peerAddr s.peerPort) s with
    phase := .pSessWait }

/-- Phase `P_ACK_RECV_WAIT` on `RECV(r, bytes, src_addr)`; the address is not used (42_handshake_passive.md R251). -/
def ackRecvRespond (r : Word) (bytes : List Byte) (_srcAddr : Addr) (s : State) : State :=
  recvRespond .pAckRecvIssue matchAck acceptAck r bytes s

/-- `complete_passive(h)` (42_handshake_passive.md R256). -/
def completePassive (h : Session) (s : State) : State :=
  finishOk { s with
    connState := .established, connLocalSeq := s.isnReg, connRemoteAcked := s.peerIsn.succ32
    connSession := h, connValid := true }

/-- Phase `P_SESS_WAIT` on `SESS(ok, h)` (42_handshake_passive.md R255). -/
def sessRespond (ok : Bool) (h : Session) (s : State) : State :=
  if ok then completePassive h s else fail .sessionOpenFailure s

end Sys2Proof.Machine
end

