-- ==== Sys2Proof/Machine/Block.lean ====
section
/-! DEFINITION. The block's own steps: the rule of each phase (10_state.md R48, R49). -/

namespace Sys2Proof.Machine

/-- `on response CSUM(c)` (00_scope.md R15): enabled by a delivered response; the step drops the request (20_memory.md R86). -/
def onCsum (rule : Half → State → State) (s : State) : State :=
  match s.response with
  | some (.csum c) => endStep (rule c (clearPort s))
  | some (.send _) | some (.recv _ _ _) | some (.sess _ _) | none => s

/-- `on response SEND(r)`. -/
def onSend (rule : Word → State → State) (s : State) : State :=
  match s.response with
  | some (.send r) => endStep (rule r (clearPort s))
  | some (.csum _) | some (.recv _ _ _) | some (.sess _ _) | none => s

/-- `on response RECV(r, bytes, src_addr)`. -/
def onRecv (rule : Word → List Byte → Addr → State → State) (s : State) : State :=
  match s.response with
  | some (.recv r bytes a) => endStep (rule r bytes a (clearPort s))
  | some (.csum _) | some (.send _) | some (.sess _ _) | none => s

/-- `on response SESS(ok, h)`. -/
def onSess (rule : Bool → Session → State → State) (s : State) : State :=
  match s.response with
  | some (.sess ok h) => endStep (rule ok h (clearPort s))
  | some (.csum _) | some (.send _) | some (.recv _ _ _) | none => s

/-- The block's step (10_state.md R48): the rule its phase names, where that rule is enabled; otherwise the block waits
and nothing changes (20_memory.md R86, R106, 60_exceptions.md R326). -/
def blockStep (s : State) : State :=
  match s.phase with
  | .idle => s
  | .cCsumWait => onCsum csumRespond s
  | .aSynCsumWait => onCsum synCsumRespond s
  | .aSynSendWait => onSend (sendRespond synSent) s
  | .aSynackRecvIssue => endStep (issueRecv .aSynackRecvWait s)
  | .aSynackRecvWait => onRecv synackRecvRespond s
  | .aAckCsumWait => onCsum ackCsumRespond s
  | .aAckSendWait => onSend (sendRespond completeActive) s
  | .pSynRecvIssue => endStep (issueRecv .pSynRecvWait s)
  | .pSynRecvWait => onRecv synRecvRespond s
  | .pSynackCsumWait => onCsum synackCsumRespond s
  | .pSynackSendWait => onSend (sendRespond synackSent) s
  | .pAckRecvIssue => endStep (issueRecv .pAckRecvWait s)
  | .pAckRecvWait => onRecv ackRecvRespond s
  | .pSessWait => onSess sessRespond s

end Sys2Proof.Machine
end

