-- ==== Sys2Proof/Machine/Control.lean ====
section
/-! DEFINITION. The control actions of `CTRL`: the soft reset and the write without a command (43_extension_points.md R285,
R286). -/

namespace Sys2Proof.Machine

/-- SRST: `soft_reset()` (43_extension_points.md R286); nothing else of the word acts (20_memory.md R82). -/
def execSrst (s : State) : Host.Outcome State Fault Refusal := .next (resetBlock s)

/-- CTRL_SET: a `CTRL` write with `GO = 0` and `SRST = 0` (43_extension_points.md R285). -/
def execCtrlSet (cmd : BitVec 4) (ie : Bool) (s : State) : Host.Outcome State Fault Refusal :=
  .next { s with ie := ie, cmd := if s.busy then s.cmd else cmd }

end Sys2Proof.Machine
end

