-- ==== Sys2Proof/Machine/Extension.lean ====
section
/-! DEFINITION. The extension commands and the codes with no command (43_extension_points.md R280 to R284). -/

namespace Sys2Proof.Machine

/-- SEND (43_extension_points.md R281). -/
def execSend (ie : Bool) (s : State) : Host.Outcome State Fault Refusal :=
  .next (issue 0x8 ie (endCodec .notImplemented) s)

/-- RECEIVE (43_extension_points.md R282). -/
def execReceive (ie : Bool) (s : State) : Host.Outcome State Fault Refusal :=
  .next (issue 0x9 ie (endCodec .notImplemented) s)

/-- CLOSE (43_extension_points.md R283). -/
def execClose (ie : Bool) (s : State) : Host.Outcome State Fault Refusal :=
  .next (issue 0xA ie (endCodec .notImplemented) s)

/-- Code 0x0 (43_extension_points.md R284). -/
def execIllegal0 (ie : Bool) (s : State) : Host.Outcome State Fault Refusal :=
  .next (issue 0x0 ie (endCodec .badCommand) s)

/-- Code 0x6 (43_extension_points.md R284). -/
def execIllegal6 (ie : Bool) (s : State) : Host.Outcome State Fault Refusal :=
  .next (issue 0x6 ie (endCodec .badCommand) s)

/-- Code 0x7 (43_extension_points.md R284). -/
def execIllegal7 (ie : Bool) (s : State) : Host.Outcome State Fault Refusal :=
  .next (issue 0x7 ie (endCodec .badCommand) s)

/-- Code 0xB (43_extension_points.md R284). -/
def execIllegalB (ie : Bool) (s : State) : Host.Outcome State Fault Refusal :=
  .next (issue 0xB ie (endCodec .badCommand) s)

/-- Code 0xC (43_extension_points.md R284). -/
def execIllegalC (ie : Bool) (s : State) : Host.Outcome State Fault Refusal :=
  .next (issue 0xC ie (endCodec .badCommand) s)

/-- Code 0xD (43_extension_points.md R284). -/
def execIllegalD (ie : Bool) (s : State) : Host.Outcome State Fault Refusal :=
  .next (issue 0xD ie (endCodec .badCommand) s)

/-- Code 0xE (43_extension_points.md R284). -/
def execIllegalE (ie : Bool) (s : State) : Host.Outcome State Fault Refusal :=
  .next (issue 0xE ie (endCodec .badCommand) s)

/-- Code 0xF (43_extension_points.md R284). -/
def execIllegalF (ie : Bool) (s : State) : Host.Outcome State Fault Refusal :=
  .next (issue 0xF ie (endCodec .badCommand) s)

end Sys2Proof.Machine
end

