-- ==== Sys2Proof/Machine/Dispatch.lean ====
section
/-! DEFINITION. One arm for each instruction: what a `CTRL` write does (20_memory.md R82). -/

namespace Sys2Proof.Machine

def exec (i : Instr) (s : State) : Host.Outcome State Fault Refusal :=
  match i with
  | .encode ie => Sys2Proof.Machine.execEncode ie s
  | .decode ie => Sys2Proof.Machine.execDecode ie s
  | .csum ie => Sys2Proof.Machine.execCsum ie s
  | .connect ie => Sys2Proof.Machine.execConnect ie s
  | .listen ie => Sys2Proof.Machine.execListen ie s
  | .send ie => Sys2Proof.Machine.execSend ie s
  | .receive ie => Sys2Proof.Machine.execReceive ie s
  | .close ie => Sys2Proof.Machine.execClose ie s
  | .illegal0 ie => Sys2Proof.Machine.execIllegal0 ie s
  | .illegal6 ie => Sys2Proof.Machine.execIllegal6 ie s
  | .illegal7 ie => Sys2Proof.Machine.execIllegal7 ie s
  | .illegalB ie => Sys2Proof.Machine.execIllegalB ie s
  | .illegalC ie => Sys2Proof.Machine.execIllegalC ie s
  | .illegalD ie => Sys2Proof.Machine.execIllegalD ie s
  | .illegalE ie => Sys2Proof.Machine.execIllegalE ie s
  | .illegalF ie => Sys2Proof.Machine.execIllegalF ie s
  | .srst => Sys2Proof.Machine.execSrst s
  | .ctrlSet cmd ie => Sys2Proof.Machine.execCtrlSet cmd ie s

end Sys2Proof.Machine
end

