-- ==== Sys2Proof/Machine/HostPort.lean ====
section
/-! DEFINITION. The host register port: the register map, reads, and writes other than of `CTRL` (10_state.md R50 to R57,
20_memory.md R81, R83 to R85). -/

namespace Sys2Proof.Machine

/-- The place of each register in the host register space (10_state.md R55), with the whole window of `RXBUF`
(20_memory.md R80). The numbers are word addresses, byte offsets divided by 4. -/
def regAt (a : BitVec 8) : Option Reg :=
  let n := a.toNat
  if n = 0 then some .id
  else if n = 1 then some .ctrl
  else if n = 2 then some .status
  else if n = 3 then some .phase
  else if n = 4 then some .counters
  else if n = 5 then some .argSession
  else if n = 6 then some .argPort
  else if n = 7 then some .argLport
  else if n = 8 then some .argBudget
  else if 9 ≤ n ∧ n < 13 then some (.argAddr (Fin.ofNat 4 (n - 9)))
  else if n = 16 then some .connStatus
  else if n = 17 then some .connLocalSeq
  else if n = 18 then some .connRemoteAcked
  else if n = 19 then some .connSession
  else if n = 20 then some .isnReg
  else if n = 21 then some .peerIsn
  else if n = 22 then some .peerPort
  else if 24 ≤ n ∧ n < 28 then some (.peerAddr (Fin.ofNat 4 (n - 24)))
  else if 32 ≤ n ∧ n < 47 then some (.txseg (Fin.ofNat 15 (n - 32)))
  else if 48 ≤ n ∧ n < 63 then some (.rxseg (Fin.ofNat 15 (n - 48)))
  else if n = 64 then some .txlen
  else if n = 65 then some .rxlen
  else if 128 ≤ n ∧ n < 143 then some (.txbuf (Fin.ofNat 15 (n - 128)))
  else if 192 ≤ n ∧ n < 256 then some (.rxbuf (Fin.ofNat 64 (n - 192)))
  else none

/-- The byte offset of a register (10_state.md R55). -/
def Reg.offset : Reg → Nat
  | .id => 0x000
  | .ctrl => 0x004
  | .status => 0x008
  | .phase => 0x00C
  | .counters => 0x010
  | .argSession => 0x014
  | .argPort => 0x018
  | .argLport => 0x01C
  | .argBudget => 0x020
  | .argAddr k => 0x024 + 4 * k.val
  | .connStatus => 0x040
  | .connLocalSeq => 0x044
  | .connRemoteAcked => 0x048
  | .connSession => 0x04C
  | .isnReg => 0x050
  | .peerIsn => 0x054
  | .peerPort => 0x058
  | .peerAddr k => 0x060 + 4 * k.val
  | .txseg k => 0x080 + 4 * k.val
  | .rxseg k => 0x0C0 + 4 * k.val
  | .txlen => 0x100
  | .rxlen => 0x104
  | .txbuf k => 0x200 + 4 * k.val
  | .rxbuf k => 0x300 + 4 * k.val

/-- A register the block has: a word of `RXBUF` only below its capacity (10_state.md R55), every other one always. -/
def Reg.mapped (P : Params) : Reg → Bool
  | .rxbuf k => decide (4 * k.val + 4 ≤ P.rxBufBytes)
  | .id | .ctrl | .status | .phase | .counters | .argSession | .argPort | .argLport | .argBudget | .argAddr _
  | .connStatus | .connLocalSeq | .connRemoteAcked | .connSession | .isnReg | .peerIsn | .peerPort | .peerAddr _
  | .txseg _ | .rxseg _ | .txlen | .rxlen | .txbuf _ => true

/-- The register at a word address, `none` where the offset is not listed (10_state.md R55). -/
def regOf (P : Params) (a : BitVec 8) : Option Reg := (regAt a).filter (Reg.mapped P)

/-- A buffer word as the step numbered `tick` reads it: `be32`, or a free value where one of its bytes is unwritten
(70_reset_and_hazards.md R349). -/
def bufWord (m : Memory) (k tick : Nat) : Word :=
  (Memory.readWord m (4 * k)).getD (Config.freeWord tick)

/-- The value of a register as a read returns it (10_state.md R50 to R57). -/
def readReg (r : Reg) (s : State) : Word :=
  match r with
  | .id => Config.idValue
  | .ctrl => s.ctrlWord
  | .status => s.statusWord
  | .phase => s.phaseWord
  | .counters => s.countersWord
  | .argSession => s.argSession
  | .argPort => 0#16 ++ s.argPort
  | .argLport => 0#16 ++ s.argLport
  | .argBudget => 0#16 ++ s.argBudget
  | .argAddr k => addrWord s.argAddr k
  | .connStatus => s.connStatusWord
  | .connLocalSeq => s.connLocalSeq
  | .connRemoteAcked => s.connRemoteAcked
  | .connSession => s.connSession
  | .isnReg => s.isnReg
  | .peerIsn => s.peerIsn
  | .peerPort => 0#16 ++ s.peerPort
  | .peerAddr k => addrWord s.peerAddr k
  | .txseg k => viewWord s.txseg k
  | .rxseg k => viewWord s.rxseg k
  | .txlen => 0#25 ++ s.txlen
  | .rxlen => 0#16 ++ s.rxlen
  | .txbuf k => bufWord s.txbuf k.val s.tick
  | .rxbuf k => bufWord s.rxbuf k.val s.tick

/-- `read(a)`: an unmapped offset reads 0 (20_memory.md R81). -/
def readAddr (a : BitVec 8) (s : State) : Word :=
  match regOf s.params a with
  | some r => readReg r s
  | none => 0

/-- The host's read step; the block's state does not change (20_memory.md R85). -/
def hostRead (a : BitVec 8) (s : State) : State := { s with readData := readAddr a s }

/-- A write of an idle-only register: `store` while idle, refused and recorded while busy (20_memory.md R84). -/
def idleOnly (store : State → State) (s : State) : State :=
  if s.busy then { s with wrWhileBusy := true } else store s

/-- A `STATUS` write: W1C (20_memory.md R83). -/
def writeStatus (v : Word) (s : State) : State :=
  { s with
    done := s.done && !v.getLsbD 1
    malformedSeen := s.malformedSeen && !v.getLsbD 16
    cmdOverrun := s.cmdOverrun && !v.getLsbD 17
    wrWhileBusy := s.wrWhileBusy && !v.getLsbD 18 }

/-- What `RXLEN` stores: `min(v[15:0], RX_BUF_BYTES)` (10_state.md R55). -/
def clampRxlen (P : Params) (v : Word) : Half := BitVec.ofNat 16 (min (v.extractLsb' 0 16).toNat P.rxBufBytes)

/-- A write of the value `v` to a register other than `CTRL`, whose writes are instructions: read-only registers ignore
it (10_state.md R55, R56). -/
def writeReg (r : Reg) (v : Word) (s : State) : State :=
  match r with
  | .status => writeStatus v s
  | .argSession => idleOnly (fun s => { s with argSession := keepSession s.params v }) s
  | .argPort => idleOnly (fun s => { s with argPort := v.extractLsb' 0 16 }) s
  | .argLport => idleOnly (fun s => { s with argLport := v.extractLsb' 0 16 }) s
  | .argBudget => idleOnly (fun s => { s with argBudget := v.extractLsb' 0 16 }) s
  | .argAddr k => idleOnly (fun s => { s with argAddr := keepAddr s.params (setAddrWord s.argAddr k v) }) s
  | .txseg k => idleOnly (fun s => { s with txseg := setView s.txseg k v }) s
  | .rxlen => idleOnly (fun s => { s with rxlen := clampRxlen s.params v }) s
  | .rxbuf k => idleOnly (fun s => { s with rxbuf := Memory.writeBytes s.rxbuf (4 * k.val) (put32 v) }) s
  | .id | .ctrl | .phase | .counters | .connStatus | .connLocalSeq | .connRemoteAcked | .connSession
  | .isnReg | .peerIsn | .peerPort | .peerAddr _ | .rxseg _ | .txlen | .txbuf _ => s

/-- A write at a word address other than that of `CTRL`; an unmapped offset ignores it (20_memory.md R81). -/
def hostWrite (a : BitVec 8) (v : Word) (s : State) : State :=
  match regOf s.params a with
  | some r => writeReg r v s
  | none => s

end Sys2Proof.Machine
end

