-- ==== Sys2Proof/Machine/Turns.lean ====
section
/-! DEFINITION. One step of one agent (10_state.md R30, 20_memory.md R100). -/

namespace Sys2Proof.Machine

/-- A host write: the decoder's instruction where the write is of `CTRL`, else a plain register write. -/
def takeWrite (a : BitVec 8) (v : Word) (s : State) : Host.Outcome State Fault Refusal :=
  match decode a v with
  | .ok i => exec i s
  | .error _ => .next (hostWrite a v s)

/-- A turn of the host. -/
def Turn.isHost : Turn → Bool
  | .read _ | .write _ _ | .wait => true
  | .respond _ | .deadline _ | .isn _ | .hardReset | .block => false

/-- The first coming turn of an agent other than the host, the turns before it and the turns after it; the block's where
none is scheduled. -/
def nextOther : List Turn → List Turn × Turn × List Turn
  | [] => ([], .block, [])
  | t :: rest =>
    if t.isHost then
      let (before, u, after) := nextOther rest
      (t :: before, u, after)
    else ([], t, rest)

/-- The turns that come after a poll that read `DONE` as 0: the next turn of another agent, then the poll again, and only
then the host's later turns. The host does not pass its loop (30_encoding.md R146); the others go on (log entry 8). -/
def pollAgain (turns : List Turn) : List Turn :=
  let (before, u, after) := nextOther turns
  u :: .wait :: before ++ after

/-- One poll of the pseudo-instruction `wait` (30_encoding.md R146): a read of `STATUS`, and the loop goes on until
`DONE` reads 1. -/
def pollDone (s : State) : State :=
  let s := hostRead 2 s
  if s.readData.getLsbD 1 then s else { s with schedule := pollAgain s.schedule }

/-- One agent's step, taken on the state with its turn removed from the schedule. -/
def takeTurn (t : Turn) (s : State) : Host.Outcome State Fault Refusal :=
  match t with
  | .read a => .next (hostRead a s)
  | .write a v => takeWrite a v s
  | .wait => .next (pollDone s)
  | .respond r => .next (deliver r s)
  | .deadline level => .next (setDeadline level s)
  | .isn v => .next (supplyIsn v s)
  | .hardReset => .next (hardReset s)
  | .block => .next (blockStep s)

/-- The state the next step starts from: its turn taken off the schedule, the step numbered. -/
def fetched (s : State) : State := { s with schedule := s.schedule.tail, tick := s.tick + 1 }

/-- The agent that moves next: the schedule's first turn, and the block where the schedule is empty (log entry 2). -/
def nextTurn (s : State) : Turn :=
  match s.schedule with
  | t :: _ => t
  | [] => .block

/-- One step of the machine. -/
def stepOnce (s : State) : Host.Outcome State Fault Refusal := takeTurn (nextTurn s) (fetched s)

/-- `s` with a `CTRL` write of the word `w` as the host's next step. -/
def withCtrlWrite (w : Word) (s : State) : State := { s with schedule := .write ctrlAddr w :: s.schedule }

end Sys2Proof.Machine
end

