-- ==== Sys2Proof/Machine/Step.lean ====
section
/-! DEFINITION. The step of the machine, and the host's placing of an instruction. -/

namespace Sys2Proof.Machine

/-- One step: the scheduled agent's, or the block's (Machine/Turns.lean). -/
def step : State → Host.Outcome State Fault Refusal := stepOnce

/-- `s` with the instruction word `w` as the very next `CTRL` write: an instruction of this block is a host write, and
the next step takes the schedule's first turn. Log entry 2 says how a program comes to run. -/
def State.withFetchWord (s : State) (_nbits w : Nat) : State := withCtrlWrite (BitVec.ofNat 32 w) s

end Sys2Proof.Machine
end

