-- ==== Sys2Proof/Safety.lean ====
section
/-! DEFINITION. The terms safety claims are stated in: the invariants of the block, the arcs of its control-flow graph, and
the bound on the work a running command has left. -/

namespace Sys2Proof.Machine

/-- The code of the command a phase belongs to (10_state.md R49). -/
def Phase.command : Phase → Option (BitVec 4)
  | .idle => none
  | .cCsumWait => some 0x3
  | .aSynCsumWait | .aSynSendWait | .aSynackRecvIssue | .aSynackRecvWait | .aAckCsumWait | .aAckSendWait => some 0x4
  | .pSynRecvIssue | .pSynRecvWait | .pSynackCsumWait | .pSynackSendWait
  | .pAckRecvIssue | .pAckRecvWait | .pSessWait => some 0x5

/-- `CONN_STATE` in the phases of a handshake (41_handshake_active.md R201, R203, 42_handshake_passive.md R241, R249). -/
def Phase.liveState : Phase → Option ConnState
  | .idle | .cCsumWait => none
  | .aSynCsumWait => some .closed
  | .aSynSendWait | .aSynackRecvIssue | .aSynackRecvWait | .aAckCsumWait | .aAckSendWait => some .synSent
  | .pSynRecvIssue | .pSynRecvWait | .pSynackCsumWait | .pSynackSendWait => some .listen
  | .pAckRecvIssue | .pAckRecvWait | .pSessWait => some .synReceived

/-- A request is outstanding exactly in a `_WAIT` phase, on the port that phase waits for (10_state.md R46), and a
delivered response answers it and has the right shape (20_memory.md R86, R89). -/
def State.PortsOk (s : State) : Prop :=
  s.outreq.map Request.port = s.phase.waitsOn ∧
    ∀ r, s.response = some r → r.shapeOk s.params = true ∧ s.outreq.map Request.port = some r.port

/-- Both buffers are in canonical form and inside their capacity, `RXLEN` is at most `RX_BUF_BYTES`, `TXLEN` is 0 (reset)
or the length of a header, and every byte of `TXBUF` below it is written (10_state.md R34, R35). -/
def State.BuffersOk (s : State) : Prop :=
  Memory.wf s.txbuf = true ∧ Memory.below Config.txBufBytes s.txbuf = true ∧
    Memory.wf s.rxbuf = true ∧ Memory.below s.params.rxBufBytes s.rxbuf = true ∧
    s.rxlen.toNat ≤ s.params.rxBufBytes ∧
    (s.txlen.toNat = 0 ∨ (20 ≤ s.txlen.toNat ∧ s.txlen.toNat ≤ 60 ∧ s.txlen.toNat % 4 = 0)) ∧
    ∀ o, o < s.txlen.toNat → (Memory.read s.txbuf o).isSome = true

/-- While a command runs, `DONE`, `ERR` and `FAIL_STATE` read 0 and `CTRL.CMD` holds its code (20_memory.md R82,
70_reset_and_hazards.md R346); a `FAIL_STATE` other than CLOSED stands beside a handshake's error (60_exceptions.md R306). -/
def State.StatusOk (s : State) : Prop :=
  (∀ c, s.phase.command = some c → s.cmd = c ∧ s.done = false ∧ s.err = .none ∧ s.failState = .closed) ∧
    (s.failState ≠ .closed →
      s.err = .sendFailure ∨ s.err = .receiveFailure ∨ s.err = .handshakeTimeout ∨ s.err = .sessionOpenFailure)

/-- In a handshake `CONN_STATE` is its live state and `CONN_VALID` is 0; otherwise the Connection is valid exactly when
`CONN_STATE` is ESTABLISHED, and CLOSED else (10_state.md R40, R41). -/
def State.ConnOk (s : State) : Prop :=
  match s.phase.liveState with
  | some c => s.connState = c ∧ s.connValid = false
  | none => (s.connState = .closed ∧ s.connValid = false) ∨ (s.connState = .established ∧ s.connValid = true)

/-- The discards counted and the discards still allowed add up to the budget (60_exceptions.md R309). The second
receive phase of LISTEN starts with a fresh budget and with the count of the first (42_handshake_passive.md R249). -/
def State.BudgetOk (s : State) : Prop :=
  match s.phase with
  | .idle => True
  | .cCsumWait | .aSynCsumWait | .aSynSendWait => s.discards = 0
  | .aSynackRecvIssue | .aSynackRecvWait | .aAckCsumWait | .aAckSendWait
  | .pSynRecvIssue | .pSynRecvWait | .pSynackCsumWait | .pSynackSendWait =>
    s.discards.toNat + s.retryLeft.toNat = s.argBudget.toNat
  | .pAckRecvIssue | .pAckRecvWait | .pSessWait =>
    s.retryLeft.toNat ≤ s.argBudget.toNat ∧ s.argBudget.toNat - s.retryLeft.toNat ≤ s.discards.toNat

/-- `TXSEG` has an encoding, and `TXBUF` and `TXLEN` hold it (40_codec.md R170, R173). -/
def State.TxEncoded (s : State) : Prop :=
  5 ≤ s.txseg.doff.toNat ∧ s.txlen.toNat = headerLen s.txseg ∧
    ∀ o, o < headerLen s.txseg → Memory.read s.txbuf o = (encodeFn s.txseg)[o]?

/-- The checksum request of a segment to `dst`: the whole segment, with its checksum field zero (40_codec.md R170). -/
def State.AsksChecksum (s : State) (dst : Addr) : Prop :=
  s.TxEncoded ∧ s.txseg.checksum = 0 ∧
    s.outreq = some (.csum s.argSession dst s.params.protoNum (encodeFn s.txseg))

/-- The send request of the segment to `dst`: the bytes of `TXSEG` with its checksum (41_handshake_active.md R203). -/
def State.AsksSend (s : State) (dst : Addr) : Prop :=
  s.TxEncoded ∧ s.outreq = some (.send s.argSession dst s.params.protoNum (encodeFn s.txseg))

/-- The outstanding request of each phase (10_state.md R46, 92_eei_decisions.md D33). -/
def State.RequestOk (s : State) : Prop :=
  match s.phase with
  | .idle | .aSynackRecvIssue | .pSynRecvIssue | .pAckRecvIssue => s.outreq = none
  | .cCsumWait | .aSynCsumWait | .aAckCsumWait => s.AsksChecksum s.argAddr
  | .pSynackCsumWait => s.AsksChecksum s.peerAddr
  | .aSynSendWait | .aAckSendWait => s.AsksSend s.argAddr
  | .pSynackSendWait => s.AsksSend s.peerAddr
  | .aSynackRecvWait | .pSynRecvWait | .pAckRecvWait => s.outreq = some (.recv s.argSession s.params.rxBufBytes)
  | .pSessWait =>
    s.outreq = some (.sess s.argSession s.argAddr s.argPort s.params.protoNum s.peerAddr s.peerPort)

/-- The segment a handshake has built last, but for its checksum, from the registers it was built from
(41_handshake_active.md R202, R210, 42_handshake_passive.md R242). -/
def State.builtSegment (s : State) : Option Segment :=
  match s.phase with
  | .idle | .cCsumWait | .pSynRecvIssue | .pSynRecvWait => none
  | .aSynCsumWait | .aSynSendWait | .aSynackRecvIssue | .aSynackRecvWait =>
    some (synSegment s.params.defaultWindow s.argLport s.argPort s.isnReg)
  | .aAckCsumWait | .aAckSendWait =>
    some { Segment.zero with
      srcPort := s.argLport, dstPort := s.argPort, seq := s.isnReg.succ32, ack := s.peerIsn.succ32
      doff := 5, flags := flagACK, window := s.params.defaultWindow }
  | .pSynackCsumWait | .pSynackSendWait | .pAckRecvIssue | .pAckRecvWait | .pSessWait =>
    some { Segment.zero with
      srcPort := s.argPort, dstPort := s.peerPort, seq := s.isnReg, ack := s.peerIsn.succ32
      doff := 5, flags := flagSYN ||| flagACK, window := s.params.defaultWindow }

/-- In a handshake `TXSEG` is the segment the rules build, with some checksum. -/
def State.SegmentOk (s : State) : Prop :=
  ∀ S, s.builtSegment = some S → { s.txseg with checksum := 0 } = S

/-- Every address has `ADDR_BITS` bits and every session handle `SESSION_BITS` (00_scope.md R9, 10_state.md R36, R40,
R45): those the host wrote, those a response brings, and those the block keeps. -/
def State.WidthsOk (s : State) : Prop :=
  keepAddr s.params s.argAddr = s.argAddr ∧ keepAddr s.params s.peerAddr = s.peerAddr ∧
    keepSession s.params s.argSession = s.argSession ∧ keepSession s.params s.connSession = s.connSession ∧
    ∀ r, s.response = some r → r.keep s.params = r

/-- The invariant of the block. -/
def State.Inv (s : State) : Prop :=
  s.PortsOk ∧ s.BuffersOk ∧ s.StatusOk ∧ s.ConnOk ∧ s.BudgetOk ∧ s.RequestOk ∧ s.SegmentOk ∧ s.WidthsOk

/-- The arcs of the control-flow graph that the text of 10_state.md R49 draws. -/
def Phase.arc : Phase → Phase → Bool
  | .idle, .cCsumWait | .idle, .aSynCsumWait | .idle, .pSynRecvIssue => true
  | .aSynCsumWait, .aSynSendWait | .aSynSendWait, .aSynackRecvIssue => true
  | .aSynackRecvIssue, .aSynackRecvWait | .aSynackRecvWait, .aSynackRecvIssue => true
  | .aSynackRecvWait, .aAckCsumWait | .aAckCsumWait, .aAckSendWait => true
  | .pSynRecvIssue, .pSynRecvWait | .pSynRecvWait, .pSynRecvIssue | .pSynRecvWait, .pSynackCsumWait => true
  | .pSynackCsumWait, .pSynackSendWait | .pSynackSendWait, .pAckRecvIssue => true
  | .pAckRecvIssue, .pAckRecvWait | .pAckRecvWait, .pAckRecvIssue | .pAckRecvWait, .pSessWait => true
  | _, _ => false

/-- A step of the block is enabled: an issue phase, or a response for the port the phase waits on (20_memory.md R86). -/
def State.blockEnabled (s : State) : Bool :=
  match s.phase.waitsOn with
  | some p => s.response.map Response.port == some p
  | none => s.phase != .idle

/-- The most block steps the running command can still take (60_exceptions.md R309, R326): a receive attempt takes an
issue step and a response step, and a receive phase makes at most `RETRY_LEFT + 1` of them. -/
def State.stepsLeft (s : State) : Nat :=
  match s.phase with
  | .idle => 0
  | .cCsumWait => 1
  | .aSynCsumWait => 2 * s.argBudget.toNat + 6
  | .aSynSendWait => 2 * s.argBudget.toNat + 5
  | .aSynackRecvIssue => 2 * s.retryLeft.toNat + 4
  | .aSynackRecvWait => 2 * s.retryLeft.toNat + 3
  | .aAckCsumWait => 2
  | .aAckSendWait => 1
  | .pSynRecvIssue => 2 * s.retryLeft.toNat + 2 * s.argBudget.toNat + 7
  | .pSynRecvWait => 2 * s.retryLeft.toNat + 2 * s.argBudget.toNat + 6
  | .pSynackCsumWait => 2 * s.argBudget.toNat + 5
  | .pSynackSendWait => 2 * s.argBudget.toNat + 4
  | .pAckRecvIssue => 2 * s.retryLeft.toNat + 3
  | .pAckRecvWait => 2 * s.retryLeft.toNat + 2
  | .pSessWait => 1

/-- A turn that ends a command from outside: the hardware reset, or a `CTRL` write that is `SRST`. -/
def Turn.resets : Turn → Bool
  | .hardReset => true
  | .write a v => decide (decode a v = .ok .srst)
  | .read _ | .wait | .respond _ | .deadline _ | .isn _ | .block => false

/-- The state after a reset, register by register (10_state.md R60). -/
def State.AtReset (s : State) : Prop :=
  s.phase.code = 0 ∧ s.outreq = none ∧ s.cmd = 0 ∧ s.ie = false ∧ s.statusWord = 0 ∧ s.irq = false ∧
    s.discards = 0 ∧ s.retryLeft = 0 ∧
    s.argSession = 0 ∧ s.argAddr = 0 ∧ s.argPort = 0 ∧ s.argLport = 0 ∧ s.argBudget = 0 ∧
    s.connState = .closed ∧ s.connValid = false ∧ s.connLocalSeq = 0 ∧ s.connRemoteAcked = 0 ∧ s.connSession = 0 ∧
    s.isnReg = 0 ∧ s.peerIsn = 0 ∧ s.peerPort = 0 ∧ s.peerAddr = 0 ∧
    s.txseg = Segment.zero ∧ s.rxseg = Segment.zero ∧ s.txlen = 0 ∧ s.rxlen = 0 ∧
    (∀ o, Memory.read s.txbuf o = none) ∧ (∀ o, Memory.read s.rxbuf o = none) ∧
    readReg .id s = 0x54435031

/-! What the environment sends and answers, as the statements speak of it. -/

/-- A receive that is no failure: a positive count, and that many bytes up to the capacity (20_memory.md R89). -/
def Received (P : Params) (r : Word) (bytes : List Byte) : Prop :=
  0 < r.toInt ∧ bytes.length = min r.toNat P.rxBufBytes

/-- The ports active open accepts, by the parameter `ACTIVE_PORT_CHECK` (41_handshake_active.md R208). -/
def PortsFor (chk : ActivePortCheck) (argPort argLport : Half) (d : Segment) : Prop :=
  match chk with
  | .peerSrc => d.srcPort = argPort
  | .localDst => d.dstPort = argLport
  | .argDst => d.dstPort = argPort
  | .both => d.srcPort = argPort ∧ d.dstPort = argLport

/-- The segments active open accepts (41_handshake_active.md R207, R208). -/
def SynackFor (chk : ActivePortCheck) (argPort argLport : Half) (isn : Word) (d : Segment) : Prop :=
  d.flags.getLsbD 1 = true ∧ d.flags.getLsbD 4 = true ∧ PortsFor chk argPort argLport d ∧ d.ack = isn + 1

/-- The segments the first receive phase of passive open accepts (42_handshake_passive.md R245). -/
def SynFor (argPort : Half) (d : Segment) : Prop :=
  d.flags.getLsbD 1 = true ∧ d.flags.getLsbD 4 = false ∧ d.dstPort = argPort

/-- The segments the second receive phase of passive open accepts (42_handshake_passive.md R252). -/
def AckFor (argPort : Half) (isn peerIsn : Word) (d : Segment) : Prop :=
  d.flags.getLsbD 4 = true ∧ d.flags.getLsbD 1 = false ∧ d.dstPort = argPort ∧ d.ack = isn + 1 ∧ d.seq = peerIsn + 1

/-- A receive phase of the state `s`: its issue phase, its wait phase and the segments it accepts. -/
def State.ReceivePhase (s : State) (issue wait : Phase) (accepts : Segment → Prop) : Prop :=
  (issue = .aSynackRecvIssue ∧ wait = .aSynackRecvWait ∧
      accepts = SynackFor s.params.activePortCheck s.argPort s.argLport s.isnReg) ∨
    (issue = .pSynRecvIssue ∧ wait = .pSynRecvWait ∧ accepts = SynFor s.argPort) ∨
    (issue = .pAckRecvIssue ∧ wait = .pAckRecvWait ∧ accepts = AckFor s.argPort s.isnReg s.peerIsn)

/-- Bytes a receive phase drops: malformed, or a segment it does not accept (60_exceptions.md R309, R311). -/
def Dropped (accepts : Segment → Prop) (bytes : List Byte) : Prop := ∀ d, decodeFn bytes = some d → ¬accepts d

/-- A receive response whose bytes a receive phase drops. -/
def DroppedAnswer (P : Params) (accepts : Segment → Prop) (a : Response) : Prop :=
  ∃ r bytes addr, a = .recv r bytes addr ∧ Received P r bytes ∧ Dropped accepts bytes

/-- The environment answers, and the block consumes the answer (20_memory.md R86). -/
def answer (r : Response) (s : State) : State := blockStep (deliver r s)

/-- One receive attempt: the issue step, the answer and the step that consumes it. -/
def receiveAttempt (r : Response) (s : State) : State := answer r (blockStep s)

/-- A receive attempt before whose answer the environment settles the draw (`some v`) or leaves it free (`none`), as P3 of
95_test_vectors.md does (30_encoding.md R145). -/
def receiveAttemptDrawing (n : Option Word) (r : Response) (s : State) : State :=
  answer r { blockStep s with nextIsn := n }

/-- One receive attempt after another. -/
def receiveAttempts (rs : List Response) (s : State) : State := rs.foldl (fun s r => receiveAttempt r s) s

/-- The bytes of the outstanding send request; none where no send is outstanding. -/
def sentBytes (s : State) : List Byte :=
  match s.outreq with
  | some (.send _ _ _ bytes) => bytes
  | some (.csum _ _ _ _) | some (.recv _ _) | some (.sess _ _ _ _ _ _) | none => []

/-- A safe run's state: the invariant holds. No step stops (`Fault` is empty, and no arm of `exec` refuses). -/
def State.Safe (s : State) : Prop := s.Inv

end Sys2Proof.Machine
end

