-- ==== Sys2Proof/Certificates/Slice0/Obligations.lean ====
section
/-! DEFINITION. The statements for the provers. A next state is written out whole: a record `{ s with … }` says that
every field it does not name is unchanged. The contents of a written buffer are said byte by byte, through
`Memory.read`. A statement over every state is over every block that 00_scope.md R9 defines: the parameters are
`s.params`, and `Params.tcphs1` has their values in TCPHS-1. -/

section

open Sys2Proof Sys2Proof.Machine

/-! ## Encoding -/

/-- 30_encoding.md R140, R141: the command of every `CTRL` word, whatever its reserved bits 30:6 hold (`r`). -/
def Obligations.CommandWordsDecodeAsTheTableSays : Prop :=
  (∀ (r : BitVec 25) (ie : Bool),
    decode ctrlAddr (0#1 ++ r ++ BitVec.ofBool ie ++ 1#1 ++ 0x0#4) = .ok (.illegal0 ie) ∧
    decode ctrlAddr (0#1 ++ r ++ BitVec.ofBool ie ++ 1#1 ++ 0x1#4) = .ok (.encode ie) ∧
    decode ctrlAddr (0#1 ++ r ++ BitVec.ofBool ie ++ 1#1 ++ 0x2#4) = .ok (.decode ie) ∧
    decode ctrlAddr (0#1 ++ r ++ BitVec.ofBool ie ++ 1#1 ++ 0x3#4) = .ok (.csum ie) ∧
    decode ctrlAddr (0#1 ++ r ++ BitVec.ofBool ie ++ 1#1 ++ 0x4#4) = .ok (.connect ie) ∧
    decode ctrlAddr (0#1 ++ r ++ BitVec.ofBool ie ++ 1#1 ++ 0x5#4) = .ok (.listen ie) ∧
    decode ctrlAddr (0#1 ++ r ++ BitVec.ofBool ie ++ 1#1 ++ 0x6#4) = .ok (.illegal6 ie) ∧
    decode ctrlAddr (0#1 ++ r ++ BitVec.ofBool ie ++ 1#1 ++ 0x7#4) = .ok (.illegal7 ie) ∧
    decode ctrlAddr (0#1 ++ r ++ BitVec.ofBool ie ++ 1#1 ++ 0x8#4) = .ok (.send ie) ∧
    decode ctrlAddr (0#1 ++ r ++ BitVec.ofBool ie ++ 1#1 ++ 0x9#4) = .ok (.receive ie) ∧
    decode ctrlAddr (0#1 ++ r ++ BitVec.ofBool ie ++ 1#1 ++ 0xA#4) = .ok (.close ie) ∧
    decode ctrlAddr (0#1 ++ r ++ BitVec.ofBool ie ++ 1#1 ++ 0xB#4) = .ok (.illegalB ie) ∧
    decode ctrlAddr (0#1 ++ r ++ BitVec.ofBool ie ++ 1#1 ++ 0xC#4) = .ok (.illegalC ie) ∧
    decode ctrlAddr (0#1 ++ r ++ BitVec.ofBool ie ++ 1#1 ++ 0xD#4) = .ok (.illegalD ie) ∧
    decode ctrlAddr (0#1 ++ r ++ BitVec.ofBool ie ++ 1#1 ++ 0xE#4) = .ok (.illegalE ie) ∧
    decode ctrlAddr (0#1 ++ r ++ BitVec.ofBool ie ++ 1#1 ++ 0xF#4) = .ok (.illegalF ie)) ∧
  (∀ r : BitVec 31, decode ctrlAddr (1#1 ++ r) = .ok .srst) ∧
  (∀ (r : BitVec 25) (ie : Bool) (cmd : BitVec 4),
    decode ctrlAddr (0#1 ++ r ++ BitVec.ofBool ie ++ 0#1 ++ cmd) = .ok (.ctrlSet cmd ie))

/-- Decoding the encoding of an instruction gives it back, as a host write and as a table word. -/
def Obligations.DecodeOfEncodeIsTheInstruction : Prop :=
  ∀ i : Instr, i.wf = true →
    decode ctrlAddr (encodeWord i) = .ok i ∧ decodeTableWord 32 (encodeWord i).toNat = some i

/-- Words written out from the fields of 30_encoding.md R140 and R141, and the instructions they stand for. -/
def Obligations.WrittenOutWordsDecode : Prop :=
  decodeWord 0b00000000000000000000000000010001#32 = .encode false ∧
  decodeWord 0b00000000000000000000000000110010#32 = .decode true ∧
  decodeWord 0b00000000000000000000000000110100#32 = .connect true ∧
  decodeWord 0b00000000000000000000000000011010#32 = .close false ∧
  decodeWord 0b00000000000000000000000000011011#32 = .illegalB false ∧
  decodeWord 0b10000000000000000000000000010001#32 = .srst ∧
  decodeWord 0b00000000000000000000000000100101#32 = .ctrlSet 0x5 true

/-- 30_encoding.md R120: the place of every field of a header. -/
def Obligations.EncodedHeaderHasTheWireLayout : Prop :=
  ∀ S : Segment, 5 ≤ S.doff.toNat →
    (encodeFn S).length = 4 * S.doff.toNat ∧
    be16 (encodeFn S) 0 = S.srcPort ∧ be16 (encodeFn S) 2 = S.dstPort ∧
    be32 (encodeFn S) 4 = S.seq ∧ be32 (encodeFn S) 8 = S.ack ∧
    (byteAt (encodeFn S) 12).extractLsb' 4 4 = S.doff ∧
    (byteAt (encodeFn S) 12).extractLsb' 1 3 = S.rsvd ∧
    (byteAt (encodeFn S) 12).extractLsb' 0 1 = S.ns ∧
    byteAt (encodeFn S) 13 = S.flags ∧
    be16 (encodeFn S) 14 = S.window ∧ be16 (encodeFn S) 16 = S.checksum ∧ be16 (encodeFn S) 18 = S.urgent ∧
    ∀ (i : Nat) (hi : i < 40), i < 4 * (S.doff.toNat - 5) → byteAt (encodeFn S) (20 + i) = S.opt[i]

/-- 40_codec.md R167: both round-trip laws of the segment codec. -/
def Obligations.SegmentDecodeAndEncodeAgree : Prop :=
  (∀ S : Segment, 5 ≤ S.doff.toNat →
    (∀ (i : Nat) (hi : i < 40), 4 * (S.doff.toNat - 5) ≤ i → S.opt[i] = 0) →
    decodeFn (encodeFn S) = some S) ∧
  (∀ (b : List Byte) (d : Segment), decodeFn b = some d → encodeFn d = b.take (4 * d.doff.toNat))

/-- 40_codec.md R164: when a buffer is malformed, and what of a well-formed one is read. -/
def Obligations.MalformedBuffersAreTheShortAndTheIllFormed : Prop :=
  (∀ b : List Byte, b.length < 20 → decodeFn b = none) ∧
  (∀ b : List Byte, 20 ≤ b.length → ((byteAt b 12).extractLsb' 4 4).toNat ≤ 4 → decodeFn b = none) ∧
  (∀ b : List Byte, 20 ≤ b.length → 6 ≤ ((byteAt b 12).extractLsb' 4 4).toNat →
    b.length < 4 * ((byteAt b 12).extractLsb' 4 4).toNat → decodeFn b = none) ∧
  (∀ b : List Byte, 5 ≤ ((byteAt b 12).extractLsb' 4 4).toNat →
    4 * ((byteAt b 12).extractLsb' 4 4).toNat ≤ b.length →
    ∃ d, decodeFn b = some d ∧
      (∀ p : List Byte, decodeFn (b ++ p) = some d) ∧
      d.srcPort = byteAt b 0 ++ byteAt b 1 ∧ d.dstPort = byteAt b 2 ++ byteAt b 3 ∧
      d.seq = byteAt b 4 ++ byteAt b 5 ++ byteAt b 6 ++ byteAt b 7 ∧
      d.ack = byteAt b 8 ++ byteAt b 9 ++ byteAt b 10 ++ byteAt b 11 ∧
      d.doff ++ d.rsvd ++ d.ns = byteAt b 12 ∧ d.flags = byteAt b 13 ∧
      ∀ (i : Nat) (hi : i < 40), d.opt[i] = if 20 + i < 4 * d.doff.toNat then byteAt b (20 + i) else 0)

/-! ## The host register port -/

/-- 10_state.md R55: the register at each word address is the one whose byte offset it is, in a block with the
parameters `P`. -/
def Obligations.RegisterMapIsTheOffsetTable : Prop :=
  ∀ (P : Params) (a : BitVec 8) (r : Reg),
    regOf P a = some r ↔ r.mapped P = true ∧ r.offset = 4 * a.toNat

/-- 10_state.md R50 to R57: what a read of each register returns, field by field. -/
def Obligations.ReadsReturnTheRegisterLayouts : Prop :=
  ∀ s : State,
    readAddr 0 s = 0x54435031 ∧
    readAddr 1 s = 0#26 ++ BitVec.ofBool s.ie ++ 0#1 ++ s.cmd ∧
    readAddr 2 s = 0#13 ++ BitVec.ofBool s.wrWhileBusy ++ BitVec.ofBool s.cmdOverrun ++ BitVec.ofBool s.malformedSeen
      ++ 0#5 ++ s.failState.code ++ s.err.code ++ 0#2 ++ BitVec.ofBool s.done
      ++ BitVec.ofBool (decide (s.phase ≠ .idle)) ∧
    readAddr 3 s = 0#27 ++ s.phase.code ∧
    readAddr 4 s = s.retryLeft ++ s.discards ∧
    readAddr 5 s = s.argSession ∧ readAddr 6 s = 0#16 ++ s.argPort ∧ readAddr 7 s = 0#16 ++ s.argLport ∧
    readAddr 8 s = 0#16 ++ s.argBudget ∧
    readAddr 9 s ++ readAddr 10 s ++ readAddr 11 s ++ readAddr 12 s = s.argAddr ∧
    readAddr 16 s = 0#23 ++ BitVec.ofBool s.connValid ++ 0#5 ++ s.connState.code ∧
    readAddr 17 s = s.connLocalSeq ∧ readAddr 18 s = s.connRemoteAcked ∧ readAddr 19 s = s.connSession ∧
    readAddr 20 s = s.isnReg ∧ readAddr 21 s = s.peerIsn ∧ readAddr 22 s = 0#16 ++ s.peerPort ∧
    readAddr 24 s ++ readAddr 25 s ++ readAddr 26 s ++ readAddr 27 s = s.peerAddr ∧
    (∀ k : Fin 15,
      readAddr (BitVec.ofNat 8 (32 + k.val)) s = viewWord s.txseg k ∧
      readAddr (BitVec.ofNat 8 (48 + k.val)) s = viewWord s.rxseg k) ∧
    readAddr 64 s = 0#25 ++ s.txlen ∧ readAddr 65 s = 0#16 ++ s.rxlen ∧
    (∀ (k : Fin 15) (b0 b1 b2 b3 : Byte),
      Memory.read s.txbuf (4 * k.val) = some b0 → Memory.read s.txbuf (4 * k.val + 1) = some b1 →
        Memory.read s.txbuf (4 * k.val + 2) = some b2 → Memory.read s.txbuf (4 * k.val + 3) = some b3 →
        readAddr (BitVec.ofNat 8 (128 + k.val)) s = b0 ++ b1 ++ b2 ++ b3) ∧
    ∀ (k : Fin 64) (b0 b1 b2 b3 : Byte), 4 * k.val + 4 ≤ s.params.rxBufBytes →
      Memory.read s.rxbuf (4 * k.val) = some b0 → Memory.read s.rxbuf (4 * k.val + 1) = some b1 →
        Memory.read s.rxbuf (4 * k.val + 2) = some b2 → Memory.read s.rxbuf (4 * k.val + 3) = some b3 →
        readAddr (BitVec.ofNat 8 (192 + k.val)) s = b0 ++ b1 ++ b2 ++ b3

/-- 20_memory.md R85: the host's read step changes nothing but the value the host holds (and the model's own fields). So
does each read of a `wait` loop (30_encoding.md R146), which the host leaves only when `DONE` reads 1: until then its next
turn is the loop's again, and its later turns keep their order behind it. The other agents' turns keep their order too,
and the first of them, or a step of the block where there is none, comes before the loop's next read (log entry 8). -/
def Obligations.ReadsHaveNoSideEffect : Prop :=
  (∀ (s : State) (a : BitVec 8) (rest : List Turn), s.schedule = .read a :: rest →
    step s = .next
      { s with
        schedule := rest, tick := s.tick + 1
        readData := readAddr a { s with schedule := rest, tick := s.tick + 1 } }) ∧
  ∀ (s : State) (rest : List Turn), s.schedule = .wait :: rest →
    ∃ turns,
      step s = .next { s with schedule := turns, tick := s.tick + 1, readData := s.statusWord } ∧
      (s.done = true → turns = rest) ∧
      (s.done = false →
        turns.filter Turn.isHost = .wait :: rest.filter Turn.isHost ∧
        turns.filter (fun t => !t.isHost) =
          (if rest.filter (fun t => !t.isHost) = [] then [.block] else rest.filter fun t => !t.isHost) ∧
        ∃ t later, turns = t :: .wait :: later ∧ t.isHost = false)

/-- 10_state.md R57: a segment's view words are the words of its encoding; a written view reads back, and no other
view changes. -/
def Obligations.SegmentViewsAreTheEncodedWords : Prop :=
  (∀ (S : Segment) (k : Fin 15), 5 ≤ S.doff.toNat → k.val < S.doff.toNat →
    viewWord S k = be32 (encodeFn S) (4 * k.val)) ∧
  (∀ (S : Segment) (k : Fin 15) (v : Word), viewWord (setView S k v) k = v) ∧
  (∀ (S : Segment) (k j : Fin 15) (v : Word), j ≠ k → viewWord (setView S k v) j = viewWord S j)

/-- 20_memory.md R83: a `STATUS` write clears the W1C bits written as 1, busy or not, and changes nothing else. -/
def Obligations.StatusWriteClearsTheBitsWrittenAsOne : Prop :=
  ∀ (s : State) (v : Word), ∃ t, takeWrite 2 v s = .next t ∧
    t = { s with
      done := s.done && !v.getLsbD 1, malformedSeen := s.malformedSeen && !v.getLsbD 16
      cmdOverrun := s.cmdOverrun && !v.getLsbD 17, wrWhileBusy := s.wrWhileBusy && !v.getLsbD 18 } ∧
    t.statusWord = s.statusWord &&& ~~~(v &&& 0x00070002)

/-- 20_memory.md R84: a write of an idle-only register, while busy and while idle. Where `SESSION_BITS` or `ADDR_BITS` is less
than the registers hold, the low bits are kept (the model's choice, log entry 6). -/
def Obligations.IdleOnlyRegistersAreWrittenOnlyWhileIdle : Prop :=
  (∀ (s : State) (a : BitVec 8) (v : Word), s.phase ≠ .idle →
    (5 ≤ a.toNat ∧ a.toNat ≤ 12 ∨ 32 ≤ a.toNat ∧ a.toNat ≤ 46 ∨ a.toNat = 65 ∨
      192 ≤ a.toNat ∧ 4 * a.toNat < 0x300 + s.params.rxBufBytes) →
    takeWrite a v s = .next { s with wrWhileBusy := true }) ∧
  ∀ (s : State) (v : Word), s.phase = .idle →
    takeWrite 5 v s = .next { s with argSession := keepSession s.params v } ∧
    takeWrite 6 v s = .next { s with argPort := v.extractLsb' 0 16 } ∧
    takeWrite 7 v s = .next { s with argLport := v.extractLsb' 0 16 } ∧
    takeWrite 8 v s = .next { s with argBudget := v.extractLsb' 0 16 } ∧
    takeWrite 9 v s = .next { s with argAddr := keepAddr s.params (v ++ s.argAddr.extractLsb' 0 96) } ∧
    takeWrite 10 v s =
      .next { s with argAddr := keepAddr s.params (s.argAddr.extractLsb' 96 32 ++ v ++ s.argAddr.extractLsb' 0 64) } ∧
    takeWrite 11 v s =
      .next { s with argAddr := keepAddr s.params (s.argAddr.extractLsb' 64 64 ++ v ++ s.argAddr.extractLsb' 0 32) } ∧
    takeWrite 12 v s = .next { s with argAddr := keepAddr s.params (s.argAddr.extractLsb' 32 96 ++ v) } ∧
    (∀ k : Fin 15, ∃ S, takeWrite (BitVec.ofNat 8 (32 + k.val)) v s = .next { s with txseg := S } ∧
      viewWord S k = v ∧ ∀ j : Fin 15, j ≠ k → viewWord S j = viewWord s.txseg j) ∧
    takeWrite 65 v s =
      .next { s with rxlen := BitVec.ofNat 16 (min (v.extractLsb' 0 16).toNat s.params.rxBufBytes) } ∧
    (∀ k : Fin 64, 4 * k.val + 4 ≤ s.params.rxBufBytes → ∃ m,
      takeWrite (BitVec.ofNat 8 (192 + k.val)) v s = .next { s with rxbuf := m } ∧
      Memory.read m (4 * k.val) = some (v.extractLsb' 24 8) ∧
      Memory.read m (4 * k.val + 1) = some (v.extractLsb' 16 8) ∧
      Memory.read m (4 * k.val + 2) = some (v.extractLsb' 8 8) ∧
      Memory.read m (4 * k.val + 3) = some (v.extractLsb' 0 8) ∧
      ∀ o, o < 4 * k.val ∨ 4 * k.val + 4 ≤ o → Memory.read m o = Memory.read s.rxbuf o)

/-- 10_state.md R55, R56, 20_memory.md R81: a write of a read-only register or of an unmapped offset is ignored, and
an unmapped offset reads 0. -/
def Obligations.OtherOffsetsIgnoreWrites : Prop :=
  ∀ (s : State) (a : BitVec 8) (v : Word),
    ¬(a.toNat = 1 ∨ a.toNat = 2 ∨ 5 ≤ a.toNat ∧ a.toNat ≤ 12 ∨ 32 ≤ a.toNat ∧ a.toNat ≤ 46 ∨ a.toNat = 65 ∨
      192 ≤ a.toNat ∧ 4 * a.toNat < 0x300 + s.params.rxBufBytes) →
    takeWrite a v s = .next s ∧ ((∀ r : Reg, r.mapped s.params = true → r.offset ≠ 4 * a.toNat) → readAddr a s = 0)

/-! ## Reset -/

/-- 10_state.md R60: what a soft and a hardware reset leave, from every state. -/
def Obligations.ResetLeavesTheResetValues : Prop :=
  (∀ P : Params, (State.resetOf P).AtReset) ∧
  ∀ s : State,
    (∃ t, exec .srst s = .next t ∧ t.AtReset) ∧ ∃ t, takeTurn .hardReset s = .next t ∧ t.AtReset

/-- 43_extension_points.md R286: SRST in every phase. The parameters, and what the environment and the host hold,
stay (log entry 11). -/
def Obligations.SoftResetResetsTheBlock : Prop :=
  ∀ s : State,
    exec .srst s = .next
      { State.resetOf s.params with
        deadline := s.deadline, readData := s.readData, schedule := s.schedule, tick := s.tick }

/-- 70_reset_and_hazards.md R342: a response to a request a reset dropped is never delivered. -/
def Obligations.ResetDropsTheOutstandingRequest : Prop :=
  ∀ (s t : State) (r : Response), exec .srst s = .next t ∨ takeTurn .hardReset s = .next t →
    t.outreq = none ∧ t.response = none ∧ answer r t = t

/-! ## Control writes -/

/-- 43_extension_points.md R285: a `CTRL` write without a command. -/
def Obligations.ControlWriteSetsIeAndCmd : Prop :=
  ∀ (cmd : BitVec 4) (ie : Bool) (s : State),
    (s.phase = .idle → exec (.ctrlSet cmd ie) s = .next { s with ie := ie, cmd := cmd }) ∧
    (s.phase ≠ .idle → exec (.ctrlSet cmd ie) s = .next { s with ie := ie })

/-- 20_memory.md R82: a command issued while one runs is refused, and recorded. -/
def Obligations.CommandWhileBusyIsRefused : Prop :=
  ∀ (ie : Bool) (i : Instr) (s : State),
    i ∈ [Instr.encode ie, .decode ie, .csum ie, .connect ie, .listen ie, .send ie, .receive ie, .close ie,
      .illegal0 ie, .illegal6 ie, .illegal7 ie, .illegalB ie, .illegalC ie, .illegalD ie, .illegalE ie,
      .illegalF ie] →
    s.phase ≠ .idle →
    exec i s = .next { s with ie := ie, cmdOverrun := true }

/-- 20_memory.md R82, 43_extension_points.md R285: a step that takes a `CTRL` write runs the instruction its word decodes
to. -/
def Obligations.StepRunsTheDecodedInstruction : Prop :=
  (∀ (s : State) (rest : List Turn) (w : Word) (i : Instr),
    s.schedule = .write ctrlAddr w :: rest → decode ctrlAddr w = .ok i → i.wf = true →
    step s = exec i { s with schedule := rest, tick := s.tick + 1 }) ∧
  ∀ (s : State) (w : Nat) (i : Instr), decodeTableWord 32 w = some i →
    step (s.withFetchWord 32 w) = exec i { s with tick := s.tick + 1 }

/-! ## Codec commands -/

/-- 40_codec.md R162: ENCODE. -/
def Obligations.EncodeWritesTheEncoding : Prop :=
  ∀ (ie : Bool) (s : State), s.phase = .idle →
    (s.txseg.doff.toNat < 5 →
      exec (.encode ie) s = .next
        { s with
          ie := ie, cmd := 0x1, discards := 0, outreq := none, response := none, nextIsn := none
          err := .badHeaderLength, failState := .closed, done := true }) ∧
    (5 ≤ s.txseg.doff.toNat → ∃ m,
      exec (.encode ie) s = .next
        { s with
          ie := ie, cmd := 0x1, discards := 0, outreq := none, response := none, nextIsn := none
          err := .none, failState := .closed, done := true
          txbuf := m, txlen := BitVec.ofNat 7 (4 * s.txseg.doff.toNat) } ∧
      ∀ o, Memory.read m o =
        if o < 4 * s.txseg.doff.toNat then (encodeFn s.txseg)[o]? else Memory.read s.txbuf o)

/-- 40_codec.md R165: DECODE of the `RXLEN` valid bytes `b` of `RXBUF`; an unwritten byte is a draw
(70_reset_and_hazards.md R349). -/
def Obligations.DecodeLoadsTheReceivedSegment : Prop :=
  ∀ (ie : Bool) (s : State), s.phase = .idle →
    ∃ b : List Byte, b.length = s.rxlen.toNat ∧
      (∀ o v, o < s.rxlen.toNat → Memory.read s.rxbuf o = some v → b[o]? = some v) ∧
      (decodeFn b = none →
        exec (.decode ie) s = .next
          { s with
            ie := ie, cmd := 0x2, discards := 0, outreq := none, response := none, nextIsn := none, malformedSeen := true
            err := .malformedSegment, failState := .closed, done := true }) ∧
      (∀ d, decodeFn b = some d →
        exec (.decode ie) s = .next
          { s with
            ie := ie, cmd := 0x2, discards := 0, outreq := none, response := none, nextIsn := none, rxseg := d
            err := .none, failState := .closed, done := true })

/-- 40_codec.md R171, R170: the GO step of CSUM. -/
def Obligations.CsumAsksForTheChecksum : Prop :=
  ∀ (ie : Bool) (s : State), s.phase = .idle →
    (s.txseg.doff.toNat < 5 →
      exec (.csum ie) s = .next
        { s with
          ie := ie, cmd := 0x3, discards := 0, outreq := none, response := none, nextIsn := none
          err := .badHeaderLength, failState := .closed, done := true }) ∧
    (5 ≤ s.txseg.doff.toNat → ∃ m,
      exec (.csum ie) s = .next
        { s with
          ie := ie, cmd := 0x3, discards := 0, response := none, nextIsn := none
          err := .none, failState := .closed, done := false
          txseg := { s.txseg with checksum := 0 }
          txbuf := m, txlen := BitVec.ofNat 7 (4 * s.txseg.doff.toNat)
          outreq := some (.csum s.argSession s.argAddr s.params.protoNum (encodeFn { s.txseg with checksum := 0 }))
          phase := .cCsumWait } ∧
      ∀ o, Memory.read m o =
        if o < 4 * s.txseg.doff.toNat then (encodeFn { s.txseg with checksum := 0 })[o]?
        else Memory.read s.txbuf o)

/-- 40_codec.md R172, R173: the response step of CSUM. -/
def Obligations.CsumInsertsTheChecksum : Prop :=
  ∀ (c : Half) (s : State), s.phase = .cCsumWait → s.response = some (.csum c) → ∃ m,
    blockStep s =
      { s with
        txseg := { s.txseg with checksum := c }, txbuf := m
        outreq := none, response := none, nextIsn := none
        phase := .idle, err := .none, failState := .closed, done := true } ∧
    (∀ o, Memory.read m o =
      if o = 16 then some (c.extractLsb' 8 8) else if o = 17 then some (c.extractLsb' 0 8)
      else Memory.read s.txbuf o) ∧
    (s.TxEncoded → (blockStep s).TxEncoded)

/-- 40_codec.md R167, 70_reset_and_hazards.md R349: a decode and a buffer read depend on the step's free values only
where a byte they read is unwritten. -/
def Obligations.DrawsMatterOnlyForUnwrittenBytes : Prop :=
  (∀ (ie : Bool) (s : State) (n : Nat),
    (∀ o, o < s.rxlen.toNat → ∃ v, Memory.read s.rxbuf o = some v) →
    ∃ t, exec (.decode ie) s = .next t ∧ exec (.decode ie) { s with tick := n } = .next { t with tick := n }) ∧
  (∀ (s : State) (n : Nat) (k : Fin 64),
    (∀ o, 4 * k.val ≤ o → o < 4 * k.val + 4 → ∃ v, Memory.read s.rxbuf o = some v) →
    readReg (.rxbuf k) { s with tick := n } = readReg (.rxbuf k) s) ∧
  (∀ (s : State) (n : Nat) (k : Fin 15),
    (∀ o, 4 * k.val ≤ o → o < 4 * k.val + 4 → ∃ v, Memory.read s.txbuf o = some v) →
    readReg (.txbuf k) { s with tick := n } = readReg (.txbuf k) s) ∧
  (∀ (s : State) (n : Nat) (r : Reg), (∀ k, r ≠ .txbuf k) → (∀ k, r ≠ .rxbuf k) →
    readReg r { s with tick := n } = readReg r s)

/-! ## Extension commands and codes without a command -/

/-- 43_extension_points.md R280: SEND, RECEIVE and CLOSE. -/
def Obligations.ExtensionCommandsEndNotImplemented : Prop :=
  ∀ (ie : Bool) (i : Instr) (c : BitVec 4) (s : State),
    (i, c) ∈ [(Instr.send ie, 0x8#4), (.receive ie, 0x9#4), (.close ie, 0xA#4)] → s.phase = .idle →
    exec i s = .next
      { s with
        ie := ie, cmd := c, discards := 0, outreq := none, response := none, nextIsn := none
        err := .notImplemented, failState := .closed, done := true }

/-- 43_extension_points.md R284: the eight codes with no command. -/
def Obligations.CodesWithoutACommandEndBadCommand : Prop :=
  ∀ (ie : Bool) (i : Instr) (c : BitVec 4) (s : State),
    (i, c) ∈ [(Instr.illegal0 ie, 0x0#4), (.illegal6 ie, 0x6#4), (.illegal7 ie, 0x7#4), (.illegalB ie, 0xB#4),
      (.illegalC ie, 0xC#4), (.illegalD ie, 0xD#4), (.illegalE ie, 0xE#4), (.illegalF ie, 0xF#4)] →
    s.phase = .idle →
    exec i s = .next
      { s with
        ie := ie, cmd := c, discards := 0, outreq := none, response := none, nextIsn := none
        err := .badCommand, failState := .closed, done := true }

/-! ## Frames of the instructions -/

/-- The frame of the instructions that store to no buffer: every byte of both buffers, and every register that neither
the `CTRL` write, the prologue nor the command's rule writes. -/
def Obligations.CommandsThatStoreNothingLeaveTheBuffers : Prop :=
  ∀ (ie : Bool) (i : Instr) (s t : State),
    (i ∈ [Instr.decode ie, .listen ie, .send ie, .receive ie, .close ie, .illegal0 ie, .illegal6 ie, .illegal7 ie,
      .illegalB ie, .illegalC ie, .illegalD ie, .illegalE ie, .illegalF ie] ∨ ∃ cmd, i = .ctrlSet cmd ie) →
    exec i s = .next t →
    (∀ o, Memory.read t.txbuf o = Memory.read s.txbuf o) ∧ (∀ o, Memory.read t.rxbuf o = Memory.read s.rxbuf o) ∧
    t.txlen = s.txlen ∧ t.rxlen = s.rxlen ∧ t.txseg = s.txseg ∧
    t.argSession = s.argSession ∧ t.argAddr = s.argAddr ∧ t.argPort = s.argPort ∧ t.argLport = s.argLport ∧
    t.argBudget = s.argBudget ∧ t.connLocalSeq = s.connLocalSeq ∧ t.connRemoteAcked = s.connRemoteAcked ∧
    t.connSession = s.connSession ∧ t.isnReg = s.isnReg ∧ t.peerIsn = s.peerIsn ∧ t.peerPort = s.peerPort ∧
    t.peerAddr = s.peerAddr ∧ t.wrWhileBusy = s.wrWhileBusy ∧ t.deadline = s.deadline ∧
    (s.phase ≠ .idle ∨ (∃ cmd, i = .ctrlSet cmd ie) → t.nextIsn = s.nextIsn) ∧
    (i ≠ .decode ie → t.rxseg = s.rxseg ∧ t.malformedSeen = s.malformedSeen) ∧
    (i ≠ .listen ie → t.connState = s.connState ∧ t.connValid = s.connValid ∧ t.retryLeft = s.retryLeft)

/-- The frame of the commands that store to `TXBUF`: the stored bytes are the header's, from offset 0 on; every other
byte of both buffers is unchanged, and so is every register the commands' rules do not write. -/
def Obligations.CommandsThatStoreTouchOnlyTheHeaderBytes : Prop :=
  ∀ (ie : Bool) (i : Instr) (s t : State), i ∈ [Instr.encode ie, .csum ie, .connect ie] → exec i s = .next t →
    (∀ o, Memory.read t.rxbuf o = Memory.read s.rxbuf o) ∧
    (∀ o, headerLen t.txseg ≤ o → Memory.read t.txbuf o = Memory.read s.txbuf o) ∧
    (s.phase ≠ .idle ∨ (i ≠ .connect ie ∧ s.txseg.doff.toNat < 5) →
      t.txlen = s.txlen ∧ t.txseg = s.txseg ∧ ∀ o, Memory.read t.txbuf o = Memory.read s.txbuf o) ∧
    t.rxlen = s.rxlen ∧ t.rxseg = s.rxseg ∧
    t.argSession = s.argSession ∧ t.argAddr = s.argAddr ∧ t.argPort = s.argPort ∧ t.argLport = s.argLport ∧
    t.argBudget = s.argBudget ∧ t.retryLeft = s.retryLeft ∧ t.connLocalSeq = s.connLocalSeq ∧
    t.connRemoteAcked = s.connRemoteAcked ∧ t.connSession = s.connSession ∧ t.peerIsn = s.peerIsn ∧
    t.peerPort = s.peerPort ∧ t.peerAddr = s.peerAddr ∧ t.malformedSeen = s.malformedSeen ∧
    t.wrWhileBusy = s.wrWhileBusy ∧ t.deadline = s.deadline ∧ (s.phase ≠ .idle → t.nextIsn = s.nextIsn) ∧
    (i ≠ .connect ie →
      t.connState = s.connState ∧ t.connValid = s.connValid ∧ t.isnReg = s.isnReg ∧
        { t.txseg with checksum := s.txseg.checksum } = s.txseg)

/-! ## Active open -/

/-- 41_handshake_active.md R201, R202: the GO step of CONNECT, for every value `v` of the draw. -/
def Obligations.ConnectBuildsTheSyn : Prop :=
  ∀ (ie : Bool) (s : State), s.phase = .idle → ∃ (v : Word) (S : Segment) (m : Memory),
    (∀ w, s.nextIsn = some w → v = w) ∧
    S = { Segment.zero with
      srcPort := s.argLport, dstPort := s.argPort, seq := v, ack := 0
      doff := 5, flags := 0x02, window := s.params.defaultWindow } ∧
    exec (.connect ie) s = .next
      { s with
        ie := ie, cmd := 0x4, done := false, err := .none, failState := .closed, discards := 0
        connValid := false, connState := .closed, isnReg := v
        txseg := S, txbuf := m, txlen := 20
        outreq := some (.csum s.argSession s.argAddr s.params.protoNum (encodeFn S)), response := none
        nextIsn := none, phase := .aSynCsumWait } ∧
    ∀ o, Memory.read m o = if o < 20 then (encodeFn S)[o]? else Memory.read s.txbuf o

/-- 41_handshake_active.md R203, R212, 42_handshake_passive.md R248: the checksum is inserted, and the segment's
`TXLEN` bytes are sent with it. -/
def Obligations.HandshakeChecksumStepsSendTheSegment : Prop :=
  ∀ (c : Half) (s : State) (S : Segment), s.TxEncoded → s.response = some (.csum c) →
    S = { s.txseg with checksum := c } →
    ∃ m,
      (∀ o, Memory.read m o =
        if o = 16 then some (c.extractLsb' 8 8) else if o = 17 then some (c.extractLsb' 0 8)
        else Memory.read s.txbuf o) ∧
      (s.phase = .aSynCsumWait → blockStep s =
        { s with
          txseg := S, txbuf := m, connState := .synSent, response := none, nextIsn := none
          outreq := some (.send s.argSession s.argAddr s.params.protoNum (encodeFn S)), phase := .aSynSendWait }) ∧
      (s.phase = .aAckCsumWait → blockStep s =
        { s with
          txseg := S, txbuf := m, response := none, nextIsn := none
          outreq := some (.send s.argSession s.argAddr s.params.protoNum (encodeFn S)), phase := .aAckSendWait }) ∧
      (s.phase = .pSynackCsumWait → blockStep s =
        { s with
          txseg := S, txbuf := m, response := none, nextIsn := none
          outreq := some (.send s.argSession s.peerAddr s.params.protoNum (encodeFn S)), phase := .pSynackSendWait })

/-- 60_exceptions.md R301: a send that fails ends the handshake. -/
def Obligations.FailedSendAbortsTheHandshake : Prop :=
  ∀ (r : Word) (s : State), s.phase ∈ [Phase.aSynSendWait, .aAckSendWait, .pSynackSendWait] →
    s.response = some (.send r) → r.toInt ≤ 0 →
    blockStep s =
      { s with
        failState := s.connState, connState := .closed, connValid := false
        outreq := none, response := none, nextIsn := none, phase := .idle, err := .sendFailure, done := true }

/-- 41_handshake_active.md R204, 42_handshake_passive.md R249: a send of the SYN or the SYN-ACK that succeeds starts
the next receive phase with the full budget. -/
def Obligations.SuccessfulSendStartsTheReceivePhase : Prop :=
  ∀ (r : Word) (s : State), s.response = some (.send r) → 0 < r.toInt →
    (s.phase = .aSynSendWait → blockStep s =
      { s with outreq := none, response := none, nextIsn := none, retryLeft := s.argBudget, phase := .aSynackRecvIssue }) ∧
    (s.phase = .pSynackSendWait → blockStep s =
      { s with
        outreq := none, response := none, nextIsn := none, connState := .synReceived, retryLeft := s.argBudget
        phase := .pAckRecvIssue })

/-- 41_handshake_active.md R205, 42_handshake_passive.md R243, R250: the issue steps. -/
def Obligations.IssueStepsCheckTheDeadlineFirst : Prop :=
  ∀ (s : State) (issue wait : Phase) (accepts : Segment → Prop), s.ReceivePhase issue wait accepts →
    s.phase = issue →
    (s.deadline = true → blockStep s =
      { s with
        failState := s.connState, connState := .closed, connValid := false
        outreq := none, response := none, nextIsn := none, phase := .idle, err := .handshakeTimeout, done := true }) ∧
    (s.deadline = false → blockStep s =
      { s with outreq := some (.recv s.argSession s.params.rxBufBytes), response := none, nextIsn := none, phase := wait })

/-- 60_exceptions.md R302: a receive that fails ends the handshake and stores nothing. -/
def Obligations.FailedReceiveAbortsTheHandshake : Prop :=
  ∀ (s : State) (issue wait : Phase) (accepts : Segment → Prop) (r : Word) (bytes : List Byte) (a : Addr),
    s.ReceivePhase issue wait accepts → s.phase = wait → s.response = some (.recv r bytes a) → r.toInt ≤ 0 →
    blockStep s =
      { s with
        failState := s.connState, connState := .closed, connValid := false
        outreq := none, response := none, nextIsn := none, phase := .idle, err := .receiveFailure, done := true }

/-- 60_exceptions.md R309, R311, R304: a malformed or mismatching segment is stored, counted and dropped. -/
def Obligations.DroppedSegmentsCountAgainstTheBudget : Prop :=
  ∀ (s : State) (issue wait : Phase) (accepts : Segment → Prop) (r : Word) (bytes : List Byte) (a : Addr),
    s.ReceivePhase issue wait accepts → s.phase = wait → s.response = some (.recv r bytes a) →
    Received s.params r bytes → Dropped accepts bytes →
    ∃ (m : Memory) (u : State),
      (∀ o, Memory.read m o = if o < bytes.length then bytes[o]? else Memory.read s.rxbuf o) ∧
      u = { s with
        rxlen := BitVec.ofNat 16 bytes.length, rxbuf := m
        rxseg := (decodeFn bytes).getD s.rxseg
        malformedSeen := s.malformedSeen || (decodeFn bytes).isNone
        discards := if s.discards = 0xFFFF then 0xFFFF else s.discards + 1
        outreq := none, response := none, nextIsn := none } ∧
      (s.retryLeft = 0 → blockStep s =
        { u with
          failState := s.connState, connState := .closed, connValid := false
          phase := .idle, err := .handshakeTimeout, done := true }) ∧
      (s.retryLeft ≠ 0 → blockStep s = { u with retryLeft := s.retryLeft - 1, phase := issue })

/-- 41_handshake_active.md R209, R210: an accepted SYN-ACK, whatever the budget and the deadline are
(60_exceptions.md R314). -/
def Obligations.AcceptedSynackBuildsTheAck : Prop :=
  ∀ (s : State) (r : Word) (bytes : List Byte) (a : Addr) (d : Segment),
    s.phase = .aSynackRecvWait → s.response = some (.recv r bytes a) → Received s.params r bytes →
    decodeFn bytes = some d → SynackFor s.params.activePortCheck s.argPort s.argLport s.isnReg d →
    ∃ (S : Segment) (mr mt : Memory),
      S = { Segment.zero with
        srcPort := s.argLport, dstPort := s.argPort, seq := d.ack, ack := d.seq + 1
        doff := 5, flags := 0x10, window := s.params.defaultWindow } ∧
      (∀ o, Memory.read mr o = if o < bytes.length then bytes[o]? else Memory.read s.rxbuf o) ∧
      (∀ o, Memory.read mt o = if o < 20 then (encodeFn S)[o]? else Memory.read s.txbuf o) ∧
      blockStep s =
        { s with
          rxlen := BitVec.ofNat 16 bytes.length, rxbuf := mr, rxseg := d
          peerIsn := d.seq, peerPort := d.srcPort, txseg := S, txbuf := mt, txlen := 20
          outreq := some (.csum s.argSession s.argAddr s.params.protoNum (encodeFn S)), response := none
          nextIsn := none, phase := .aAckCsumWait }

/-- 41_handshake_active.md R213, R214: the successful send of the ACK completes CONNECT. -/
def Obligations.SentAckCompletesConnect : Prop :=
  ∀ (s : State) (r : Word), s.phase = .aAckSendWait → s.response = some (.send r) → 0 < r.toInt →
    blockStep s =
      { s with
        connState := .established, connLocalSeq := s.isnReg, connRemoteAcked := s.peerIsn
        connSession := s.argSession, connValid := true
        outreq := none, response := none, nextIsn := none
        phase := .idle, err := .none, failState := .closed, done := true }

/-- 41_handshake_active.md R208, 00_scope.md R9: the port test under each value of the parameter, and the values all
parameters take in TCPHS-1, whose addresses and handles are as wide as their registers. -/
def Obligations.PortTestFollowsTheParameter : Prop :=
  (∀ (argPort argLport : Half) (d : Segment),
    (portOk .peerSrc argPort argLport d = true ↔ d.srcPort = argPort) ∧
    (portOk .localDst argPort argLport d = true ↔ d.dstPort = argLport) ∧
    (portOk .argDst argPort argLport d = true ↔ d.dstPort = argPort) ∧
    (portOk .both argPort argLport d = true ↔ d.srcPort = argPort ∧ d.dstPort = argLport)) ∧
  (∀ (s : State) (d : Segment),
    matchSynack d s = true ↔
      d.flags.getLsbD 1 = true ∧ d.flags.getLsbD 4 = true ∧
        portOk s.params.activePortCheck s.argPort s.argLport d = true ∧ d.ack = s.isnReg + 1) ∧
  State.reset.params = Params.tcphs1 ∧ Params.tcphs1.defaultWindow = 1000 ∧ Params.tcphs1.protoNum = 6 ∧
  Params.tcphs1.addrBits = 128 ∧ Params.tcphs1.sessionBits = 32 ∧ Params.tcphs1.rxBufBytes = 60 ∧
  Params.tcphs1.activePortCheck = .both ∧
  (∀ a : Addr, keepAddr Params.tcphs1 a = a) ∧ ∀ h : Session, keepSession Params.tcphs1 h = h

/-! ## Passive open -/

/-- 42_handshake_passive.md R241: the GO step of LISTEN. -/
def Obligations.ListenStartsTheReceivePhase : Prop :=
  ∀ (ie : Bool) (s : State), s.phase = .idle →
    exec (.listen ie) s = .next
      { s with
        ie := ie, cmd := 0x5, done := false, err := .none, failState := .closed, discards := 0
        connValid := false, connState := .listen, retryLeft := s.argBudget, nextIsn := none, phase := .pSynRecvIssue }

/-- 42_handshake_passive.md R246, R242: an accepted SYN, for every value `v` of the draw, which is the one the environment
settled for the step where it settled one (30_encoding.md R145). -/
def Obligations.AcceptedSynBuildsTheSynack : Prop :=
  (∀ (w : Word) (s : State), takeTurn (.isn w) s = .next { s with nextIsn := some w }) ∧
  ∀ (s : State) (r : Word) (bytes : List Byte) (a : Addr) (d : Segment),
    s.phase = .pSynRecvWait → s.response = some (.recv r bytes a) → Received s.params r bytes →
    decodeFn bytes = some d → SynFor s.argPort d →
    ∃ (v : Word) (S : Segment) (mr mt : Memory),
      (∀ w, s.nextIsn = some w → v = w) ∧
      S = { Segment.zero with
        srcPort := s.argPort, dstPort := d.srcPort, seq := v, ack := d.seq + 1
        doff := 5, flags := 0x12, window := s.params.defaultWindow } ∧
      (∀ o, Memory.read mr o = if o < bytes.length then bytes[o]? else Memory.read s.rxbuf o) ∧
      (∀ o, Memory.read mt o = if o < 20 then (encodeFn S)[o]? else Memory.read s.txbuf o) ∧
      blockStep s =
        { s with
          rxlen := BitVec.ofNat 16 bytes.length, rxbuf := mr, rxseg := d
          peerIsn := d.seq, peerPort := d.srcPort, peerAddr := a
          isnReg := v, txseg := S, txbuf := mt, txlen := 20
          outreq := some (.csum s.argSession a s.params.protoNum (encodeFn S)), response := none, nextIsn := none
          phase := .pSynackCsumWait }

/-- 42_handshake_passive.md R252, R254: an accepted final ACK asks for the bound session. -/
def Obligations.AcceptedAckAsksForTheSession : Prop :=
  ∀ (s : State) (r : Word) (bytes : List Byte) (a : Addr) (d : Segment),
    s.phase = .pAckRecvWait → s.response = some (.recv r bytes a) → Received s.params r bytes →
    decodeFn bytes = some d → AckFor s.argPort s.isnReg s.peerIsn d →
    ∃ m,
      (∀ o, Memory.read m o = if o < bytes.length then bytes[o]? else Memory.read s.rxbuf o) ∧
      blockStep s =
        { s with
          rxlen := BitVec.ofNat 16 bytes.length, rxbuf := m, rxseg := d
          outreq := some (.sess s.argSession s.argAddr s.argPort s.params.protoNum s.peerAddr s.peerPort)
          response := none, nextIsn := none, phase := .pSessWait }

/-- 42_handshake_passive.md R255, R256: the session factory's answer ends LISTEN. -/
def Obligations.SessionAnswerEndsListen : Prop :=
  ∀ (s : State) (h : Session), s.phase = .pSessWait →
    (s.response = some (.sess true h) → blockStep s =
      { s with
        connState := .established, connLocalSeq := s.isnReg, connRemoteAcked := s.peerIsn + 1
        connSession := h, connValid := true
        outreq := none, response := none, nextIsn := none
        phase := .idle, err := .none, failState := .closed, done := true }) ∧
    (s.response = some (.sess false h) → blockStep s =
      { s with
        failState := s.connState, connState := .closed, connValid := false
        outreq := none, response := none, nextIsn := none, phase := .idle, err := .sessionOpenFailure, done := true })

/-! ## The environment -/

/-- 20_memory.md R86: a response exists only for the outstanding request, and only one; it has the
port's widths, of which the low bits are kept (the model's choice, log entry 6). -/
def Obligations.ResponsesAnswerTheOutstandingRequest : Prop :=
  ∀ (s : State) (r : Response),
    (s.outreq = none → deliver r s = s) ∧
    (s.response ≠ none → deliver r s = s) ∧
    (∀ q, s.outreq = some q → q.port ≠ r.port → deliver r s = s) ∧
    (∀ q, s.outreq = some q → s.response = none → q.port = r.port → r.shapeOk s.params = true →
      deliver r s = { s with response := some (r.keep s.params) })

/-- 20_memory.md R86, R106, 60_exceptions.md R326: a block whose request is not answered, and an idle block, change
nothing of the machine. -/
def Obligations.WaitingBlockChangesNothing : Prop :=
  ∀ (s : State) (p : Port), s.schedule = [] →
    (s.phase = .idle ∨ (s.phase.waitsOn = some p ∧ ∀ r, s.response = some r → r.port ≠ p)) →
    step s = .next { s with tick := s.tick + 1 }

/-! ## The whole machine -/

/-- 93_implementation_defined.md, after I26: no behaviour is a fault, and no instruction is refused. No step changes the
parameters (00_scope.md R9). -/
def Obligations.EveryStepHasANextState : Prop := ∀ s : State, ∃ t, step s = .next t ∧ t.params = s.params

/-- The invariant holds after reset, whatever the parameters are. -/
def Obligations.InvAtReset : Prop := ∀ P : Params, (State.resetOf P).Inv

/-- The invariant is kept by every step of every agent. -/
def Obligations.EveryStepKeepsInv : Prop := ∀ s t : State, s.Inv → step s = .next t → t.Inv

/-- 10_state.md R49: every change of `PHASE` is an arc of the graph, by the agent that takes it. -/
def Obligations.PhaseChangesAreArcs : Prop :=
  ∀ s t : State, step s = .next t → t.phase ≠ s.phase →
    (s.phase = .idle ∧ s.phase.arc t.phase = true ∧ ∃ w, nextTurn s = .write ctrlAddr w) ∨
    (nextTurn s = .block ∧ (t.phase = .idle ∨ s.phase.arc t.phase = true)) ∨
    (t.phase = .idle ∧ (nextTurn s).resets = true)

/-- 10_state.md R40: the Connection's data changes only at a successful completion and at a reset, and it becomes valid only
at such a completion. -/
def Obligations.ConnectionChangesOnlyAtCompletionOrReset : Prop :=
  ∀ s t : State, step s = .next t →
    (t.connLocalSeq ≠ s.connLocalSeq ∨ t.connRemoteAcked ≠ s.connRemoteAcked ∨ t.connSession ≠ s.connSession ∨
      (t.connValid = true ∧ s.connValid = false)) →
    (nextTurn s = .block ∧ (s.phase = .aAckSendWait ∨ s.phase = .pSessWait) ∧
      t.phase = .idle ∧ t.done = true ∧ t.err = .none ∧ t.connState = .established ∧ t.connValid = true) ∨
    ((nextTurn s).resets = true ∧ t.connValid = false)

/-- 40_codec.md R166: the only writes of `RXSEG` are of a decoded segment, and a reset. -/
def Obligations.RxsegHoldsOnlyDecodedSegments : Prop :=
  ∀ s t : State, step s = .next t → t.rxseg ≠ s.rxseg →
    (∃ b, decodeFn b = some t.rxseg) ∨ ((nextTurn s).resets = true ∧ t.rxseg = Segment.zero)

/-- 60_exceptions.md R300: the codes, and the command that raises each kind. -/
def Obligations.ErrorKindsAreRaisedByTheirCommands : Prop :=
  (ErrKind.none.code = 0 ∧ ErrKind.sendFailure.code = 1 ∧ ErrKind.receiveFailure.code = 2 ∧
    ErrKind.handshakeTimeout.code = 3 ∧ ErrKind.malformedSegment.code = 4 ∧ ErrKind.sessionOpenFailure.code = 5 ∧
    ErrKind.badCommand.code = 6 ∧ ErrKind.notImplemented.code = 7 ∧ ErrKind.badHeaderLength.code = 8) ∧
  ∀ s t : State, s.StatusOk → step s = .next t → t.err ≠ s.err →
    match t.err with
    | .none => True
    | .sendFailure | .receiveFailure | .handshakeTimeout => t.cmd = 0x4 ∨ t.cmd = 0x5
    | .malformedSegment => t.cmd = 0x2
    | .sessionOpenFailure => t.cmd = 0x5
    | .badCommand => t.cmd ∈ [0x0#4, 0x6, 0x7, 0xB, 0xC, 0xD, 0xE, 0xF]
    | .notImplemented => t.cmd ∈ [0x8#4, 0x9, 0xA]
    | .badHeaderLength => t.cmd = 0x1 ∨ t.cmd = 0x3

/-- 60_exceptions.md R312: the only ways the interrupt level rises and falls. -/
def Obligations.InterruptChangesOnlyAsListed : Prop :=
  ∀ s t : State, step s = .next t →
    (s.irq = false → t.irq = true →
      (nextTurn s = .block ∧ s.phase ≠ .idle ∧ t.phase = .idle) ∨
      ∃ w, nextTurn s = .write ctrlAddr w ∧ w.getLsbD 31 = false ∧ w.getLsbD 5 = true ∧
        (s.done = true ∨ (w.getLsbD 4 = true ∧ s.phase = .idle))) ∧
    (s.irq = true → t.irq = false →
      (∃ w, nextTurn s = .write 2 w ∧ w.getLsbD 1 = true) ∨
      (∃ w, nextTurn s = .write ctrlAddr w ∧ w.getLsbD 31 = false ∧
        (w.getLsbD 5 = false ∨ (w.getLsbD 4 = true ∧ s.phase = .idle))) ∨
      (nextTurn s).resets = true)

/-- 20_memory.md R106, 70_reset_and_hazards.md R345: no host write but a soft reset reaches what a running command
uses. -/
def Obligations.HostCannotDisturbARunningCommand : Prop :=
  ∀ (s t : State) (a : BitVec 8) (v : Word), s.phase ≠ .idle → (a = ctrlAddr → v.getLsbD 31 = false) →
    takeWrite a v s = .next t →
    { t with
      ie := s.ie, done := s.done, malformedSeen := s.malformedSeen, cmdOverrun := s.cmdOverrun
      wrWhileBusy := s.wrWhileBusy } = s

/-- 20_memory.md R87, R88, R89: the shape of the outstanding request, in every state of the invariant. -/
def Obligations.OutstandingRequestsHaveTheirShape : Prop :=
  ∀ (s : State), s.Inv →
    (∀ ses dst proto bytes, s.outreq = some (.csum ses dst proto bytes) →
      ses = s.argSession ∧ proto = s.params.protoNum ∧ 20 ≤ bytes.length ∧ bytes.length ≤ 60 ∧
        bytes[16]? = some 0 ∧ bytes[17]? = some 0) ∧
    (∀ ses dst proto bytes, s.outreq = some (.send ses dst proto bytes) →
      ses = s.argSession ∧ proto = s.params.protoNum ∧ bytes.length = s.txlen.toNat ∧
        ∀ o, o < s.txlen.toNat → bytes[o]? = Memory.read s.txbuf o) ∧
    (∀ ses n, s.outreq = some (.recv ses n) → ses = s.argSession ∧ n = s.params.rxBufBytes)

/-- 40_codec.md R174: what a handshake sends, with offsets 16 and 17 zeroed, is what it asked the checksum of. -/
def Obligations.SentBytesAreTheChecksummedBytes : Prop :=
  ∀ (s : State) (ses : Session) (dst : Addr) (proto : Byte) (asked : List Byte) (c : Half),
    s.Inv → s.phase ≠ .cCsumWait → s.outreq = some (.csum ses dst proto asked) → s.response = some (.csum c) →
    ∃ sent, (blockStep s).outreq = some (.send ses dst proto sent) ∧ sent.length = asked.length ∧
      sent[16]? = some (c.extractLsb' 8 8) ∧ sent[17]? = some (c.extractLsb' 0 8) ∧
      (sent.set 16 0).set 17 0 = asked

/-- 60_exceptions.md R326: each enabled step of the block brings its command nearer to its end, and no step but a new
command's GO takes it further away. -/
def Obligations.EnabledBlockStepsExhaustTheCommand : Prop :=
  ∀ s t : State, step s = .next t → s.phase ≠ .idle →
    t.stepsLeft ≤ s.stepsLeft ∧
    (nextTurn s = .block → s.blockEnabled = true → t.stepsLeft < s.stepsLeft) ∧
    (t.stepsLeft = 0 ↔ t.phase = .idle)

/-- 60_exceptions.md R309: a receive phase with `n` discards left drops `n` segments and goes on, and the next one
ends the command. -/
def Obligations.ReceivePhaseDropsAtMostItsBudget : Prop :=
  ∀ (s : State) (issue wait : Phase) (accepts : Segment → Prop) (dropped : List Response),
    s.ReceivePhase issue wait accepts → s.phase = issue → s.deadline = false →
    (∀ a ∈ dropped, DroppedAnswer s.params accepts a) →
    (dropped.length ≤ s.retryLeft.toNat →
      (receiveAttempts dropped s).phase = issue ∧
      (receiveAttempts dropped s).retryLeft.toNat = s.retryLeft.toNat - dropped.length ∧
      (receiveAttempts dropped s).connState = s.connState) ∧
    (dropped.length = s.retryLeft.toNat + 1 →
      (receiveAttempts dropped s).phase = .idle ∧ (receiveAttempts dropped s).err = .handshakeTimeout ∧
      (receiveAttempts dropped s).failState = s.connState ∧ (receiveAttempts dropped s).connState = .closed ∧
      (receiveAttempts dropped s).connValid = false ∧ (receiveAttempts dropped s).done = true ∧
      (receiveAttempts dropped s).outreq = none)

/-- 41_handshake_active.md R200, R214: an answered CONNECT, with any segments dropped within the budget, ends with the
Connection the rules name, whatever the draw and the checksums are. -/
def Obligations.ConnectReachesEstablished : Prop :=
  ∀ (ie : Bool) (s g : State) (c₁ c₂ : Half) (r₁ r₂ r : Word) (dropped : List Response) (bytes : List Byte)
    (a : Addr) (d : Segment),
    s.phase = .idle → s.deadline = false → exec (.connect ie) s = .next g →
    0 < r₁.toInt → 0 < r₂.toInt →
    (∀ x ∈ dropped, DroppedAnswer s.params (SynackFor s.params.activePortCheck s.argPort s.argLport g.isnReg) x) →
    dropped.length ≤ s.argBudget.toNat →
    Received s.params r bytes → decodeFn bytes = some d →
    SynackFor s.params.activePortCheck s.argPort s.argLport g.isnReg d →
    ∀ w t : State,
      w = receiveAttempts dropped (answer (.send r₁) (answer (.csum c₁) g)) →
      t = answer (.send r₂) (answer (.csum c₂) (receiveAttempt (.recv r bytes a) w)) →
      t.phase = .idle ∧ t.done = true ∧ t.err = .none ∧ t.failState = .closed ∧
        t.connState = .established ∧ t.connValid = true ∧ t.connLocalSeq = g.isnReg ∧
        t.connRemoteAcked = d.seq ∧ t.connSession = s.argSession ∧ t.discards.toNat = dropped.length ∧
        t.irq = ie ∧ ∀ v, s.nextIsn = some v → t.connLocalSeq = v

/-- 42_handshake_passive.md R240, R256: an answered LISTEN, with any segments dropped within the budget of each receive
phase, ends with the Connection the rules name, whatever the draw and the checksum are. -/
def Obligations.ListenReachesEstablished : Prop :=
  ∀ (ie : Bool) (s g : State) (c : Half) (r₁ r₂ r₃ : Word) (dropped₁ dropped₂ : List Response)
    (bytes₁ bytes₂ : List Byte) (a₁ a₂ : Addr) (d₁ d₂ : Segment) (h : Session),
    s.phase = .idle → s.deadline = false → exec (.listen ie) s = .next g → 0 < r₃.toInt →
    (∀ x ∈ dropped₁, DroppedAnswer s.params (SynFor s.argPort) x) → dropped₁.length ≤ s.argBudget.toNat →
    Received s.params r₁ bytes₁ → decodeFn bytes₁ = some d₁ → SynFor s.argPort d₁ →
    ∀ (n : Option Word) (w : State),
    w = receiveAttemptDrawing n (.recv r₁ bytes₁ a₁) (receiveAttempts dropped₁ g) →
    (∀ x ∈ dropped₂, DroppedAnswer s.params (AckFor s.argPort w.isnReg d₁.seq) x) →
    dropped₂.length ≤ s.argBudget.toNat →
    Received s.params r₂ bytes₂ → decodeFn bytes₂ = some d₂ → AckFor s.argPort w.isnReg d₁.seq d₂ →
    ∀ t : State,
      t = answer (.sess true h) (receiveAttempt (.recv r₂ bytes₂ a₂)
        (receiveAttempts dropped₂ (answer (.send r₃) (answer (.csum c) w)))) →
      t.phase = .idle ∧ t.done = true ∧ t.err = .none ∧ t.failState = .closed ∧
        t.connState = .established ∧ t.connValid = true ∧ t.connLocalSeq = w.isnReg ∧
        t.connRemoteAcked = d₁.seq + 1 ∧ t.connSession = keepSession s.params h ∧
        t.discards.toNat = min (dropped₁.length + dropped₂.length) 65535 ∧ t.irq = ie ∧
        ∀ v, n = some v → t.connLocalSeq = v

/-- 90_conflicts.md C3 (95_test_vectors.md W7): two blocks, each receiving the bytes the other sends, both reach
ESTABLISHED with cross-checked numbers, whatever the draws, the checksums and the parameters are. ARG_DST compares the
SYN-ACK's destination port with `ARG_PORT`, so under it the client's own port must be that one
(41_handshake_active.md R208). -/
def Obligations.TwoBlocksHandshakeWithEachOther : Prop :=
  ∀ (ie₁ ie₂ : Bool) (client server c₀ s₀ : State) (k₁ k₂ k₃ : Half) (r₁ r₂ r₃ : Word) (a₁ a₂ a₃ : Addr)
    (h : Session),
    client.phase = .idle → server.phase = .idle → client.deadline = false → server.deadline = false →
    client.argPort = server.argPort →
    (client.params.activePortCheck = .argDst → client.argLport = client.argPort) →
    exec (.connect ie₁) client = .next c₀ → exec (.listen ie₂) server = .next s₀ →
    0 < r₁.toInt → 0 < r₂.toInt → 0 < r₃.toInt →
    ∀ (n : Option Word) (c₁ s₁ c₂ s₂ : State),
      c₁ = answer (.csum k₁) c₀ →
      s₁ = answer (.csum k₂) (receiveAttemptDrawing n (.recv 20 (sentBytes c₁) a₁) s₀) →
      c₂ = answer (.csum k₃) (receiveAttempt (.recv 20 (sentBytes s₁) a₂) (answer (.send r₁) c₁)) →
      s₂ = receiveAttempt (.recv 20 (sentBytes c₂) a₃) (answer (.send r₂) s₁) →
      ∀ c s : State, c = answer (.send r₃) c₂ → s = answer (.sess true h) s₂ →
        c.connState = .established ∧ c.connValid = true ∧ s.connState = .established ∧ s.connValid = true ∧
          c.connLocalSeq + 1 = s.connRemoteAcked ∧ c.connRemoteAcked = s.connLocalSeq ∧
          c.connSession = client.argSession ∧ s.connSession = keepSession server.params h

end
end

