-- ==== Sys2Proof/Laws/Bits.lean ====
section
/-! SUPPORT. Bit-field lemmas: taking fields apart and putting them together again (00_scope.md R11 to R13). -/

namespace Sys2Proof.Machine

/-- The four bytes of a word, put together. -/
theorem concat_bytes4 (v : Word) :
    v.extractLsb' 24 8 ++ v.extractLsb' 16 8 ++ v.extractLsb' 8 8 ++ v.extractLsb' 0 8 = v := by
  rw [BitVec.extractLsb'_append_extractLsb'_eq_extractLsb' (by rfl),
    BitVec.extractLsb'_append_extractLsb'_eq_extractLsb' (by rfl),
    BitVec.extractLsb'_append_extractLsb'_eq_extractLsb' (by rfl), BitVec.extractLsb'_eq_self]

/-- The two bytes of a half word, put together. -/
theorem concat_bytes2 (v : Half) : v.extractLsb' 8 8 ++ v.extractLsb' 0 8 = v := by
  rw [BitVec.extractLsb'_append_extractLsb'_eq_extractLsb' (by rfl), BitVec.extractLsb'_eq_self]

/-- The two halves of a word, put together. -/
theorem concat_halves (v : Word) : v.extractLsb' 16 16 ++ v.extractLsb' 0 16 = v := by
  rw [BitVec.extractLsb'_append_extractLsb'_eq_extractLsb' (by rfl), BitVec.extractLsb'_eq_self]

/-- The fields of word 3 of a header, put together. -/
theorem concat_word3 (v : Word) :
    v.extractLsb' 28 4 ++ v.extractLsb' 25 3 ++ v.extractLsb' 24 1 ++ v.extractLsb' 16 8 ++ v.extractLsb' 0 16 = v := by
  rw [BitVec.extractLsb'_append_extractLsb'_eq_extractLsb' (by rfl),
    BitVec.extractLsb'_append_extractLsb'_eq_extractLsb' (by rfl),
    BitVec.extractLsb'_append_extractLsb'_eq_extractLsb' (by rfl),
    BitVec.extractLsb'_append_extractLsb'_eq_extractLsb' (by rfl), BitVec.extractLsb'_eq_self]

/-- The three fields of byte 12, put together (30_encoding.md R121). -/
theorem concat_byte12 (b : Byte) : b.extractLsb' 4 4 ++ b.extractLsb' 1 3 ++ b.extractLsb' 0 1 = b := by
  rw [BitVec.extractLsb'_append_extractLsb'_eq_extractLsb' (by rfl),
    BitVec.extractLsb'_append_extractLsb'_eq_extractLsb' (by rfl), BitVec.extractLsb'_eq_self]

/-- The three fields of byte 12, taken apart (30_encoding.md R121). -/
theorem byte12_parts (d : BitVec 4) (r : BitVec 3) (n : BitVec 1) :
    (d ++ r ++ n : Byte).extractLsb' 4 4 = d ∧ (d ++ r ++ n : Byte).extractLsb' 1 3 = r ∧
      (d ++ r ++ n : Byte).extractLsb' 0 1 = n := by
  refine ⟨?_, ?_, ?_⟩
  · rw [BitVec.extractLsb'_append_eq_of_le (by omega), BitVec.extractLsb'_append_eq_of_le (by omega)]
    exact BitVec.extractLsb'_eq_self
  · rw [BitVec.extractLsb'_append_eq_of_le (by omega), BitVec.extractLsb'_append_eq_of_add_le (by omega)]
    exact BitVec.extractLsb'_eq_self
  · rw [BitVec.extractLsb'_append_eq_of_add_le (by omega)]
    exact BitVec.extractLsb'_eq_self

/-- Two bytes of a half word, taken apart. -/
theorem put16_append (a b : Byte) : put16 (a ++ b) = [a, b] := by
  simp only [put16, List.cons.injEq, and_true]
  constructor
  · rw [BitVec.extractLsb'_append_eq_of_le (by omega)]; exact BitVec.extractLsb'_eq_self
  · rw [BitVec.extractLsb'_append_eq_of_add_le (by omega)]; exact BitVec.extractLsb'_eq_self

/-- Four bytes of a word, taken apart. -/
theorem put32_append (a b c d : Byte) : put32 (a ++ b ++ c ++ d) = [a, b, c, d] := by
  simp only [put32, List.cons.injEq, and_true]
  refine ⟨?_, ?_, ?_, ?_⟩
  · rw [BitVec.extractLsb'_append_eq_of_le (by omega), BitVec.extractLsb'_append_eq_of_le (by omega),
      BitVec.extractLsb'_append_eq_of_le (by omega)]
    exact BitVec.extractLsb'_eq_self
  · rw [BitVec.extractLsb'_append_eq_of_le (by omega), BitVec.extractLsb'_append_eq_of_le (by omega),
      BitVec.extractLsb'_append_eq_of_add_le (by omega)]
    exact BitVec.extractLsb'_eq_self
  · rw [BitVec.extractLsb'_append_eq_of_le (by omega), BitVec.extractLsb'_append_eq_of_add_le (by omega)]
    exact BitVec.extractLsb'_eq_self
  · rw [BitVec.extractLsb'_append_eq_of_add_le (by omega)]; exact BitVec.extractLsb'_eq_self

end Sys2Proof.Machine
end

