-- ==== Sys2Proof/Laws/Memory.lean ====
section
/-! SUPPORT. The laws of the byte buffers: reads over writes, and the canonical form kept by every operation. -/

namespace Sys2Proof.Machine

@[simp] theorem read_nil (a : Nat) : Memory.read [] a = none := rfl

theorem read_write_same (m : Memory) (a : Nat) (v : Byte) : Memory.read (Memory.write m a v) a = some v := by
  induction m with
  | nil => simp [Memory.write, Memory.read]
  | cons c rest ih =>
    obtain ⟨b, w⟩ := c
    simp only [Memory.write]
    split
    · simp [Memory.read]
    · split
      · simp [Memory.read]
      · simp [Memory.read, *]

theorem read_write_other (m : Memory) {a b : Nat} (v : Byte) (h : b ≠ a) :
    Memory.read (Memory.write m a v) b = Memory.read m b := by
  induction m with
  | nil => simp [Memory.write, Memory.read, h]
  | cons c rest ih =>
    obtain ⟨x, w⟩ := c
    simp only [Memory.write]
    split
    · simp [Memory.read, h]
    · split
      · subst x; simp [Memory.read, h]
      · simp [Memory.read, ih]

/-- Reading over a written byte string: the string inside its range, the old byte outside. -/
theorem read_writeBytes (m : Memory) (a o : Nat) (vs : List Byte) :
    Memory.read (Memory.writeBytes m a vs) o =
      if h : a ≤ o ∧ o - a < vs.length then some (vs[o - a]'h.2) else Memory.read m o := by
  induction vs generalizing m a with
  | nil => simp [Memory.writeBytes]
  | cons v vs ih =>
    rw [Memory.writeBytes, ih]
    by_cases h1 : o = a
    · subst h1; simp [read_write_same]
    · by_cases h2 : a + 1 ≤ o ∧ o - (a + 1) < vs.length
      · have h3 : a ≤ o ∧ o - a < (v :: vs).length := by simp; omega
        rw [dif_pos h2, dif_pos h3]
        have : o - a = (o - (a + 1)) + 1 := by omega
        simp [this]
      · have h3 : ¬(a ≤ o ∧ o - a < (v :: vs).length) := by simp; omega
        rw [dif_neg h2, dif_neg h3, read_write_other _ _ h1]

theorem wf_cons (c : Host.Cell) (m : Memory) :
    Memory.wf (c :: m) = true ↔ (∀ x ∈ m, c.1 < x.1) ∧ Memory.wf m = true := by
  simp [Memory.wf]

theorem mem_write {m : Memory} {a : Nat} {v : Byte} {x : Host.Cell} (h : x ∈ Memory.write m a v) :
    x = (a, v) ∨ x ∈ m := by
  induction m with
  | nil => simpa [Memory.write] using h
  | cons c rest ih =>
    simp only [Memory.write] at h
    split at h
    · simpa using h
    · split at h
      · simp at h; tauto
      · simp at h; have := ih; simp; tauto

/-- A write keeps the canonical form. -/
theorem write_wf {m : Memory} (a : Nat) (v : Byte) (h : Memory.wf m = true) : Memory.wf (Memory.write m a v) = true := by
  induction m with
  | nil => simp [Memory.write, Memory.wf]
  | cons c rest ih =>
    rw [wf_cons] at h
    simp only [Memory.write]
    split
    · refine (wf_cons _ _).2 ⟨fun x hx => ?_, (wf_cons _ _).2 h⟩
      rcases List.mem_cons.1 hx with rfl | hx
      · assumption
      · have := h.1 x hx; simp only at *; omega
    · split
      · subst a; exact (wf_cons _ _).2 h
      · refine (wf_cons _ _).2 ⟨fun x hx => ?_, ih h.2⟩
        rcases mem_write hx with rfl | hx
        · simp only at *; omega
        · exact h.1 x hx

/-- A write of a byte string keeps the canonical form. -/
theorem writeBytes_wf {m : Memory} (a : Nat) (vs : List Byte) (h : Memory.wf m = true) :
    Memory.wf (Memory.writeBytes m a vs) = true := by
  induction vs generalizing m a with
  | nil => exact h
  | cons v vs ih => exact ih _ (write_wf a v h)

theorem below_iff (n : Nat) (m : Memory) : Memory.below n m = true ↔ ∀ c ∈ m, c.1 < n := by
  simp [Memory.below]

/-- A write of a byte string inside the capacity keeps the capacity. -/
theorem writeBytes_below {n : Nat} {m : Memory} {a : Nat} {vs : List Byte} (h : Memory.below n m = true)
    (hv : a + vs.length ≤ n) : Memory.below n (Memory.writeBytes m a vs) = true := by
  induction vs generalizing m a with
  | nil => exact h
  | cons v vs ih =>
    simp only [List.length_cons] at hv
    refine ih ?_ (by omega)
    rw [below_iff] at *
    intro c hc
    rcases mem_write hc with rfl | hc
    · simp only; omega
    · exact h c hc

theorem length_prefixBytes (m : Memory) (n tick : Nat) : (Memory.prefixBytes m n tick).length = n := by
  simp [Memory.prefixBytes]

/-- Where every one of the bytes is written, they are what is read, whatever the free values are. -/
theorem prefixBytes_eq {m : Memory} {n : Nat} (tick : Nat) {bs : List Byte} (hl : bs.length = n)
    (h : ∀ o (ho : o < n), Memory.read m o = some (bs[o]'(hl ▸ ho))) : Memory.prefixBytes m n tick = bs := by
  apply List.ext_getElem
  · rw [length_prefixBytes, hl]
  · intro o h1 h2
    simp [Memory.prefixBytes, h o (hl ▸ h2)]

/-- A read word is the four bytes written there. -/
theorem readWord_put32 (m : Memory) (a : Nat) (v : Word) :
    Memory.readWord (Memory.writeBytes m a (put32 v)) a = some v := by
  have h (i : Nat) (hi : i < 4) :
      Memory.read (Memory.writeBytes m a (put32 v)) (a + i) = some ((put32 v)[i]'(by simpa [put32] using hi)) := by
    rw [read_writeBytes, dif_pos ⟨by omega, by simp [put32]; omega⟩]
    simp
  unfold Memory.readWord
  rw [show Memory.read (Memory.writeBytes m a (put32 v)) a = _ from h 0 (by omega),
    h 1 (by omega), h 2 (by omega), h 3 (by omega)]
  exact congrArg some (concat_bytes4 v)

end Sys2Proof.Machine
end

