-- ==== Sys2Proof/Laws/State.lean ====
section
/-! SUPPORT. What each plain update of the state leaves in each field: one lemma a field, true by rfl. -/

namespace Sys2Proof.Machine

/-! `request` -/
@[simp] theorem request_params (q : Request) (s : State) : (request q s).params = s.params := rfl
@[simp] theorem request_phase (q : Request) (s : State) : (request q s).phase = s.phase := rfl
@[simp] theorem request_outreq (q : Request) (s : State) : (request q s).outreq = some q := rfl
@[simp] theorem request_response (q : Request) (s : State) : (request q s).response = none := rfl
@[simp] theorem request_cmd (q : Request) (s : State) : (request q s).cmd = s.cmd := rfl
@[simp] theorem request_ie (q : Request) (s : State) : (request q s).ie = s.ie := rfl
@[simp] theorem request_done (q : Request) (s : State) : (request q s).done = s.done := rfl
@[simp] theorem request_err (q : Request) (s : State) : (request q s).err = s.err := rfl
@[simp] theorem request_failState (q : Request) (s : State) : (request q s).failState = s.failState := rfl
@[simp] theorem request_malformedSeen (q : Request) (s : State) : (request q s).malformedSeen = s.malformedSeen := rfl
@[simp] theorem request_cmdOverrun (q : Request) (s : State) : (request q s).cmdOverrun = s.cmdOverrun := rfl
@[simp] theorem request_wrWhileBusy (q : Request) (s : State) : (request q s).wrWhileBusy = s.wrWhileBusy := rfl
@[simp] theorem request_discards (q : Request) (s : State) : (request q s).discards = s.discards := rfl
@[simp] theorem request_retryLeft (q : Request) (s : State) : (request q s).retryLeft = s.retryLeft := rfl
@[simp] theorem request_argSession (q : Request) (s : State) : (request q s).argSession = s.argSession := rfl
@[simp] theorem request_argAddr (q : Request) (s : State) : (request q s).argAddr = s.argAddr := rfl
@[simp] theorem request_argPort (q : Request) (s : State) : (request q s).argPort = s.argPort := rfl
@[simp] theorem request_argLport (q : Request) (s : State) : (request q s).argLport = s.argLport := rfl
@[simp] theorem request_argBudget (q : Request) (s : State) : (request q s).argBudget = s.argBudget := rfl
@[simp] theorem request_connState (q : Request) (s : State) : (request q s).connState = s.connState := rfl
@[simp] theorem request_connValid (q : Request) (s : State) : (request q s).connValid = s.connValid := rfl
@[simp] theorem request_connLocalSeq (q : Request) (s : State) : (request q s).connLocalSeq = s.connLocalSeq := rfl
@[simp] theorem request_connRemoteAcked (q : Request) (s : State) : (request q s).connRemoteAcked = s.connRemoteAcked := rfl
@[simp] theorem request_connSession (q : Request) (s : State) : (request q s).connSession = s.connSession := rfl
@[simp] theorem request_isnReg (q : Request) (s : State) : (request q s).isnReg = s.isnReg := rfl
@[simp] theorem request_peerIsn (q : Request) (s : State) : (request q s).peerIsn = s.peerIsn := rfl
@[simp] theorem request_peerPort (q : Request) (s : State) : (request q s).peerPort = s.peerPort := rfl
@[simp] theorem request_peerAddr (q : Request) (s : State) : (request q s).peerAddr = s.peerAddr := rfl
@[simp] theorem request_txseg (q : Request) (s : State) : (request q s).txseg = s.txseg := rfl
@[simp] theorem request_rxseg (q : Request) (s : State) : (request q s).rxseg = s.rxseg := rfl
@[simp] theorem request_txbuf (q : Request) (s : State) : (request q s).txbuf = s.txbuf := rfl
@[simp] theorem request_txlen (q : Request) (s : State) : (request q s).txlen = s.txlen := rfl
@[simp] theorem request_rxbuf (q : Request) (s : State) : (request q s).rxbuf = s.rxbuf := rfl
@[simp] theorem request_rxlen (q : Request) (s : State) : (request q s).rxlen = s.rxlen := rfl
@[simp] theorem request_deadline (q : Request) (s : State) : (request q s).deadline = s.deadline := rfl
@[simp] theorem request_nextIsn (q : Request) (s : State) : (request q s).nextIsn = s.nextIsn := rfl
@[simp] theorem request_readData (q : Request) (s : State) : (request q s).readData = s.readData := rfl
@[simp] theorem request_schedule (q : Request) (s : State) : (request q s).schedule = s.schedule := rfl
@[simp] theorem request_tick (q : Request) (s : State) : (request q s).tick = s.tick := rfl

/-! `clearPort` -/
@[simp] theorem clearPort_params (s : State) : (clearPort s).params = s.params := rfl
@[simp] theorem clearPort_phase (s : State) : (clearPort s).phase = s.phase := rfl
@[simp] theorem clearPort_outreq (s : State) : (clearPort s).outreq = none := rfl
@[simp] theorem clearPort_response (s : State) : (clearPort s).response = none := rfl
@[simp] theorem clearPort_cmd (s : State) : (clearPort s).cmd = s.cmd := rfl
@[simp] theorem clearPort_ie (s : State) : (clearPort s).ie = s.ie := rfl
@[simp] theorem clearPort_done (s : State) : (clearPort s).done = s.done := rfl
@[simp] theorem clearPort_err (s : State) : (clearPort s).err = s.err := rfl
@[simp] theorem clearPort_failState (s : State) : (clearPort s).failState = s.failState := rfl
@[simp] theorem clearPort_malformedSeen (s : State) : (clearPort s).malformedSeen = s.malformedSeen := rfl
@[simp] theorem clearPort_cmdOverrun (s : State) : (clearPort s).cmdOverrun = s.cmdOverrun := rfl
@[simp] theorem clearPort_wrWhileBusy (s : State) : (clearPort s).wrWhileBusy = s.wrWhileBusy := rfl
@[simp] theorem clearPort_discards (s : State) : (clearPort s).discards = s.discards := rfl
@[simp] theorem clearPort_retryLeft (s : State) : (clearPort s).retryLeft = s.retryLeft := rfl
@[simp] theorem clearPort_argSession (s : State) : (clearPort s).argSession = s.argSession := rfl
@[simp] theorem clearPort_argAddr (s : State) : (clearPort s).argAddr = s.argAddr := rfl
@[simp] theorem clearPort_argPort (s : State) : (clearPort s).argPort = s.argPort := rfl
@[simp] theorem clearPort_argLport (s : State) : (clearPort s).argLport = s.argLport := rfl
@[simp] theorem clearPort_argBudget (s : State) : (clearPort s).argBudget = s.argBudget := rfl
@[simp] theorem clearPort_connState (s : State) : (clearPort s).connState = s.connState := rfl
@[simp] theorem clearPort_connValid (s : State) : (clearPort s).connValid = s.connValid := rfl
@[simp] theorem clearPort_connLocalSeq (s : State) : (clearPort s).connLocalSeq = s.connLocalSeq := rfl
@[simp] theorem clearPort_connRemoteAcked (s : State) : (clearPort s).connRemoteAcked = s.connRemoteAcked := rfl
@[simp] theorem clearPort_connSession (s : State) : (clearPort s).connSession = s.connSession := rfl
@[simp] theorem clearPort_isnReg (s : State) : (clearPort s).isnReg = s.isnReg := rfl
@[simp] theorem clearPort_peerIsn (s : State) : (clearPort s).peerIsn = s.peerIsn := rfl
@[simp] theorem clearPort_peerPort (s : State) : (clearPort s).peerPort = s.peerPort := rfl
@[simp] theorem clearPort_peerAddr (s : State) : (clearPort s).peerAddr = s.peerAddr := rfl
@[simp] theorem clearPort_txseg (s : State) : (clearPort s).txseg = s.txseg := rfl
@[simp] theorem clearPort_rxseg (s : State) : (clearPort s).rxseg = s.rxseg := rfl
@[simp] theorem clearPort_txbuf (s : State) : (clearPort s).txbuf = s.txbuf := rfl
@[simp] theorem clearPort_txlen (s : State) : (clearPort s).txlen = s.txlen := rfl
@[simp] theorem clearPort_rxbuf (s : State) : (clearPort s).rxbuf = s.rxbuf := rfl
@[simp] theorem clearPort_rxlen (s : State) : (clearPort s).rxlen = s.rxlen := rfl
@[simp] theorem clearPort_deadline (s : State) : (clearPort s).deadline = s.deadline := rfl
@[simp] theorem clearPort_nextIsn (s : State) : (clearPort s).nextIsn = s.nextIsn := rfl
@[simp] theorem clearPort_readData (s : State) : (clearPort s).readData = s.readData := rfl
@[simp] theorem clearPort_schedule (s : State) : (clearPort s).schedule = s.schedule := rfl
@[simp] theorem clearPort_tick (s : State) : (clearPort s).tick = s.tick := rfl

/-! `drawIsn` -/
@[simp] theorem drawIsn_params (s : State) : (drawIsn s).params = s.params := rfl
@[simp] theorem drawIsn_phase (s : State) : (drawIsn s).phase = s.phase := rfl
@[simp] theorem drawIsn_outreq (s : State) : (drawIsn s).outreq = s.outreq := rfl
@[simp] theorem drawIsn_response (s : State) : (drawIsn s).response = s.response := rfl
@[simp] theorem drawIsn_cmd (s : State) : (drawIsn s).cmd = s.cmd := rfl
@[simp] theorem drawIsn_ie (s : State) : (drawIsn s).ie = s.ie := rfl
@[simp] theorem drawIsn_done (s : State) : (drawIsn s).done = s.done := rfl
@[simp] theorem drawIsn_err (s : State) : (drawIsn s).err = s.err := rfl
@[simp] theorem drawIsn_failState (s : State) : (drawIsn s).failState = s.failState := rfl
@[simp] theorem drawIsn_malformedSeen (s : State) : (drawIsn s).malformedSeen = s.malformedSeen := rfl
@[simp] theorem drawIsn_cmdOverrun (s : State) : (drawIsn s).cmdOverrun = s.cmdOverrun := rfl
@[simp] theorem drawIsn_wrWhileBusy (s : State) : (drawIsn s).wrWhileBusy = s.wrWhileBusy := rfl
@[simp] theorem drawIsn_discards (s : State) : (drawIsn s).discards = s.discards := rfl
@[simp] theorem drawIsn_retryLeft (s : State) : (drawIsn s).retryLeft = s.retryLeft := rfl
@[simp] theorem drawIsn_argSession (s : State) : (drawIsn s).argSession = s.argSession := rfl
@[simp] theorem drawIsn_argAddr (s : State) : (drawIsn s).argAddr = s.argAddr := rfl
@[simp] theorem drawIsn_argPort (s : State) : (drawIsn s).argPort = s.argPort := rfl
@[simp] theorem drawIsn_argLport (s : State) : (drawIsn s).argLport = s.argLport := rfl
@[simp] theorem drawIsn_argBudget (s : State) : (drawIsn s).argBudget = s.argBudget := rfl
@[simp] theorem drawIsn_connState (s : State) : (drawIsn s).connState = s.connState := rfl
@[simp] theorem drawIsn_connValid (s : State) : (drawIsn s).connValid = s.connValid := rfl
@[simp] theorem drawIsn_connLocalSeq (s : State) : (drawIsn s).connLocalSeq = s.connLocalSeq := rfl
@[simp] theorem drawIsn_connRemoteAcked (s : State) : (drawIsn s).connRemoteAcked = s.connRemoteAcked := rfl
@[simp] theorem drawIsn_connSession (s : State) : (drawIsn s).connSession = s.connSession := rfl
@[simp] theorem drawIsn_isnReg (s : State) : (drawIsn s).isnReg = isnDraw s := rfl
@[simp] theorem drawIsn_peerIsn (s : State) : (drawIsn s).peerIsn = s.peerIsn := rfl
@[simp] theorem drawIsn_peerPort (s : State) : (drawIsn s).peerPort = s.peerPort := rfl
@[simp] theorem drawIsn_peerAddr (s : State) : (drawIsn s).peerAddr = s.peerAddr := rfl
@[simp] theorem drawIsn_txseg (s : State) : (drawIsn s).txseg = s.txseg := rfl
@[simp] theorem drawIsn_rxseg (s : State) : (drawIsn s).rxseg = s.rxseg := rfl
@[simp] theorem drawIsn_txbuf (s : State) : (drawIsn s).txbuf = s.txbuf := rfl
@[simp] theorem drawIsn_txlen (s : State) : (drawIsn s).txlen = s.txlen := rfl
@[simp] theorem drawIsn_rxbuf (s : State) : (drawIsn s).rxbuf = s.rxbuf := rfl
@[simp] theorem drawIsn_rxlen (s : State) : (drawIsn s).rxlen = s.rxlen := rfl
@[simp] theorem drawIsn_deadline (s : State) : (drawIsn s).deadline = s.deadline := rfl
@[simp] theorem drawIsn_nextIsn (s : State) : (drawIsn s).nextIsn = s.nextIsn := rfl
@[simp] theorem drawIsn_readData (s : State) : (drawIsn s).readData = s.readData := rfl
@[simp] theorem drawIsn_schedule (s : State) : (drawIsn s).schedule = s.schedule := rfl
@[simp] theorem drawIsn_tick (s : State) : (drawIsn s).tick = s.tick := rfl

/-! `endStep` -/
@[simp] theorem endStep_params (s : State) : (endStep s).params = s.params := rfl
@[simp] theorem endStep_phase (s : State) : (endStep s).phase = s.phase := rfl
@[simp] theorem endStep_outreq (s : State) : (endStep s).outreq = s.outreq := rfl
@[simp] theorem endStep_response (s : State) : (endStep s).response = s.response := rfl
@[simp] theorem endStep_cmd (s : State) : (endStep s).cmd = s.cmd := rfl
@[simp] theorem endStep_ie (s : State) : (endStep s).ie = s.ie := rfl
@[simp] theorem endStep_done (s : State) : (endStep s).done = s.done := rfl
@[simp] theorem endStep_err (s : State) : (endStep s).err = s.err := rfl
@[simp] theorem endStep_failState (s : State) : (endStep s).failState = s.failState := rfl
@[simp] theorem endStep_malformedSeen (s : State) : (endStep s).malformedSeen = s.malformedSeen := rfl
@[simp] theorem endStep_cmdOverrun (s : State) : (endStep s).cmdOverrun = s.cmdOverrun := rfl
@[simp] theorem endStep_wrWhileBusy (s : State) : (endStep s).wrWhileBusy = s.wrWhileBusy := rfl
@[simp] theorem endStep_discards (s : State) : (endStep s).discards = s.discards := rfl
@[simp] theorem endStep_retryLeft (s : State) : (endStep s).retryLeft = s.retryLeft := rfl
@[simp] theorem endStep_argSession (s : State) : (endStep s).argSession = s.argSession := rfl
@[simp] theorem endStep_argAddr (s : State) : (endStep s).argAddr = s.argAddr := rfl
@[simp] theorem endStep_argPort (s : State) : (endStep s).argPort = s.argPort := rfl
@[simp] theorem endStep_argLport (s : State) : (endStep s).argLport = s.argLport := rfl
@[simp] theorem endStep_argBudget (s : State) : (endStep s).argBudget = s.argBudget := rfl
@[simp] theorem endStep_connState (s : State) : (endStep s).connState = s.connState := rfl
@[simp] theorem endStep_connValid (s : State) : (endStep s).connValid = s.connValid := rfl
@[simp] theorem endStep_connLocalSeq (s : State) : (endStep s).connLocalSeq = s.connLocalSeq := rfl
@[simp] theorem endStep_connRemoteAcked (s : State) : (endStep s).connRemoteAcked = s.connRemoteAcked := rfl
@[simp] theorem endStep_connSession (s : State) : (endStep s).connSession = s.connSession := rfl
@[simp] theorem endStep_isnReg (s : State) : (endStep s).isnReg = s.isnReg := rfl
@[simp] theorem endStep_peerIsn (s : State) : (endStep s).peerIsn = s.peerIsn := rfl
@[simp] theorem endStep_peerPort (s : State) : (endStep s).peerPort = s.peerPort := rfl
@[simp] theorem endStep_peerAddr (s : State) : (endStep s).peerAddr = s.peerAddr := rfl
@[simp] theorem endStep_txseg (s : State) : (endStep s).txseg = s.txseg := rfl
@[simp] theorem endStep_rxseg (s : State) : (endStep s).rxseg = s.rxseg := rfl
@[simp] theorem endStep_txbuf (s : State) : (endStep s).txbuf = s.txbuf := rfl
@[simp] theorem endStep_txlen (s : State) : (endStep s).txlen = s.txlen := rfl
@[simp] theorem endStep_rxbuf (s : State) : (endStep s).rxbuf = s.rxbuf := rfl
@[simp] theorem endStep_rxlen (s : State) : (endStep s).rxlen = s.rxlen := rfl
@[simp] theorem endStep_deadline (s : State) : (endStep s).deadline = s.deadline := rfl
@[simp] theorem endStep_nextIsn (s : State) : (endStep s).nextIsn = none := rfl
@[simp] theorem endStep_readData (s : State) : (endStep s).readData = s.readData := rfl
@[simp] theorem endStep_schedule (s : State) : (endStep s).schedule = s.schedule := rfl
@[simp] theorem endStep_tick (s : State) : (endStep s).tick = s.tick := rfl

/-! `prologue` -/
@[simp] theorem prologue_params (s : State) : (prologue s).params = s.params := rfl
@[simp] theorem prologue_phase (s : State) : (prologue s).phase = s.phase := rfl
@[simp] theorem prologue_outreq (s : State) : (prologue s).outreq = s.outreq := rfl
@[simp] theorem prologue_response (s : State) : (prologue s).response = s.response := rfl
@[simp] theorem prologue_cmd (s : State) : (prologue s).cmd = s.cmd := rfl
@[simp] theorem prologue_ie (s : State) : (prologue s).ie = s.ie := rfl
@[simp] theorem prologue_done (s : State) : (prologue s).done = false := rfl
@[simp] theorem prologue_err (s : State) : (prologue s).err = .none := rfl
@[simp] theorem prologue_failState (s : State) : (prologue s).failState = .closed := rfl
@[simp] theorem prologue_malformedSeen (s : State) : (prologue s).malformedSeen = s.malformedSeen := rfl
@[simp] theorem prologue_cmdOverrun (s : State) : (prologue s).cmdOverrun = s.cmdOverrun := rfl
@[simp] theorem prologue_wrWhileBusy (s : State) : (prologue s).wrWhileBusy = s.wrWhileBusy := rfl
@[simp] theorem prologue_discards (s : State) : (prologue s).discards = 0 := rfl
@[simp] theorem prologue_retryLeft (s : State) : (prologue s).retryLeft = s.retryLeft := rfl
@[simp] theorem prologue_argSession (s : State) : (prologue s).argSession = s.argSession := rfl
@[simp] theorem prologue_argAddr (s : State) : (prologue s).argAddr = s.argAddr := rfl
@[simp] theorem prologue_argPort (s : State) : (prologue s).argPort = s.argPort := rfl
@[simp] theorem prologue_argLport (s : State) : (prologue s).argLport = s.argLport := rfl
@[simp] theorem prologue_argBudget (s : State) : (prologue s).argBudget = s.argBudget := rfl
@[simp] theorem prologue_connState (s : State) : (prologue s).connState = s.connState := rfl
@[simp] theorem prologue_connValid (s : State) : (prologue s).connValid = s.connValid := rfl
@[simp] theorem prologue_connLocalSeq (s : State) : (prologue s).connLocalSeq = s.connLocalSeq := rfl
@[simp] theorem prologue_connRemoteAcked (s : State) : (prologue s).connRemoteAcked = s.connRemoteAcked := rfl
@[simp] theorem prologue_connSession (s : State) : (prologue s).connSession = s.connSession := rfl
@[simp] theorem prologue_isnReg (s : State) : (prologue s).isnReg = s.isnReg := rfl
@[simp] theorem prologue_peerIsn (s : State) : (prologue s).peerIsn = s.peerIsn := rfl
@[simp] theorem prologue_peerPort (s : State) : (prologue s).peerPort = s.peerPort := rfl
@[simp] theorem prologue_peerAddr (s : State) : (prologue s).peerAddr = s.peerAddr := rfl
@[simp] theorem prologue_txseg (s : State) : (prologue s).txseg = s.txseg := rfl
@[simp] theorem prologue_rxseg (s : State) : (prologue s).rxseg = s.rxseg := rfl
@[simp] theorem prologue_txbuf (s : State) : (prologue s).txbuf = s.txbuf := rfl
@[simp] theorem prologue_txlen (s : State) : (prologue s).txlen = s.txlen := rfl
@[simp] theorem prologue_rxbuf (s : State) : (prologue s).rxbuf = s.rxbuf := rfl
@[simp] theorem prologue_rxlen (s : State) : (prologue s).rxlen = s.rxlen := rfl
@[simp] theorem prologue_deadline (s : State) : (prologue s).deadline = s.deadline := rfl
@[simp] theorem prologue_nextIsn (s : State) : (prologue s).nextIsn = s.nextIsn := rfl
@[simp] theorem prologue_readData (s : State) : (prologue s).readData = s.readData := rfl
@[simp] theorem prologue_schedule (s : State) : (prologue s).schedule = s.schedule := rfl
@[simp] theorem prologue_tick (s : State) : (prologue s).tick = s.tick := rfl

/-! `finishOk` -/
@[simp] theorem finishOk_params (s : State) : (finishOk s).params = s.params := rfl
@[simp] theorem finishOk_phase (s : State) : (finishOk s).phase = .idle := rfl
@[simp] theorem finishOk_outreq (s : State) : (finishOk s).outreq = none := rfl
@[simp] theorem finishOk_response (s : State) : (finishOk s).response = none := rfl
@[simp] theorem finishOk_cmd (s : State) : (finishOk s).cmd = s.cmd := rfl
@[simp] theorem finishOk_ie (s : State) : (finishOk s).ie = s.ie := rfl
@[simp] theorem finishOk_done (s : State) : (finishOk s).done = true := rfl
@[simp] theorem finishOk_err (s : State) : (finishOk s).err = .none := rfl
@[simp] theorem finishOk_failState (s : State) : (finishOk s).failState = .closed := rfl
@[simp] theorem finishOk_malformedSeen (s : State) : (finishOk s).malformedSeen = s.malformedSeen := rfl
@[simp] theorem finishOk_cmdOverrun (s : State) : (finishOk s).cmdOverrun = s.cmdOverrun := rfl
@[simp] theorem finishOk_wrWhileBusy (s : State) : (finishOk s).wrWhileBusy = s.wrWhileBusy := rfl
@[simp] theorem finishOk_discards (s : State) : (finishOk s).discards = s.discards := rfl
@[simp] theorem finishOk_retryLeft (s : State) : (finishOk s).retryLeft = s.retryLeft := rfl
@[simp] theorem finishOk_argSession (s : State) : (finishOk s).argSession = s.argSession := rfl
@[simp] theorem finishOk_argAddr (s : State) : (finishOk s).argAddr = s.argAddr := rfl
@[simp] theorem finishOk_argPort (s : State) : (finishOk s).argPort = s.argPort := rfl
@[simp] theorem finishOk_argLport (s : State) : (finishOk s).argLport = s.argLport := rfl
@[simp] theorem finishOk_argBudget (s : State) : (finishOk s).argBudget = s.argBudget := rfl
@[simp] theorem finishOk_connState (s : State) : (finishOk s).connState = s.connState := rfl
@[simp] theorem finishOk_connValid (s : State) : (finishOk s).connValid = s.connValid := rfl
@[simp] theorem finishOk_connLocalSeq (s : State) : (finishOk s).connLocalSeq = s.connLocalSeq := rfl
@[simp] theorem finishOk_connRemoteAcked (s : State) : (finishOk s).connRemoteAcked = s.connRemoteAcked := rfl
@[simp] theorem finishOk_connSession (s : State) : (finishOk s).connSession = s.connSession := rfl
@[simp] theorem finishOk_isnReg (s : State) : (finishOk s).isnReg = s.isnReg := rfl
@[simp] theorem finishOk_peerIsn (s : State) : (finishOk s).peerIsn = s.peerIsn := rfl
@[simp] theorem finishOk_peerPort (s : State) : (finishOk s).peerPort = s.peerPort := rfl
@[simp] theorem finishOk_peerAddr (s : State) : (finishOk s).peerAddr = s.peerAddr := rfl
@[simp] theorem finishOk_txseg (s : State) : (finishOk s).txseg = s.txseg := rfl
@[simp] theorem finishOk_rxseg (s : State) : (finishOk s).rxseg = s.rxseg := rfl
@[simp] theorem finishOk_txbuf (s : State) : (finishOk s).txbuf = s.txbuf := rfl
@[simp] theorem finishOk_txlen (s : State) : (finishOk s).txlen = s.txlen := rfl
@[simp] theorem finishOk_rxbuf (s : State) : (finishOk s).rxbuf = s.rxbuf := rfl
@[simp] theorem finishOk_rxlen (s : State) : (finishOk s).rxlen = s.rxlen := rfl
@[simp] theorem finishOk_deadline (s : State) : (finishOk s).deadline = s.deadline := rfl
@[simp] theorem finishOk_nextIsn (s : State) : (finishOk s).nextIsn = s.nextIsn := rfl
@[simp] theorem finishOk_readData (s : State) : (finishOk s).readData = s.readData := rfl
@[simp] theorem finishOk_schedule (s : State) : (finishOk s).schedule = s.schedule := rfl
@[simp] theorem finishOk_tick (s : State) : (finishOk s).tick = s.tick := rfl

/-! `fail` -/
@[simp] theorem fail_params (e : ErrKind) (s : State) : (fail e s).params = s.params := rfl
@[simp] theorem fail_phase (e : ErrKind) (s : State) : (fail e s).phase = .idle := rfl
@[simp] theorem fail_outreq (e : ErrKind) (s : State) : (fail e s).outreq = none := rfl
@[simp] theorem fail_response (e : ErrKind) (s : State) : (fail e s).response = none := rfl
@[simp] theorem fail_cmd (e : ErrKind) (s : State) : (fail e s).cmd = s.cmd := rfl
@[simp] theorem fail_ie (e : ErrKind) (s : State) : (fail e s).ie = s.ie := rfl
@[simp] theorem fail_done (e : ErrKind) (s : State) : (fail e s).done = true := rfl
@[simp] theorem fail_err (e : ErrKind) (s : State) : (fail e s).err = e := rfl
@[simp] theorem fail_failState (e : ErrKind) (s : State) : (fail e s).failState = s.connState := rfl
@[simp] theorem fail_malformedSeen (e : ErrKind) (s : State) : (fail e s).malformedSeen = s.malformedSeen := rfl
@[simp] theorem fail_cmdOverrun (e : ErrKind) (s : State) : (fail e s).cmdOverrun = s.cmdOverrun := rfl
@[simp] theorem fail_wrWhileBusy (e : ErrKind) (s : State) : (fail e s).wrWhileBusy = s.wrWhileBusy := rfl
@[simp] theorem fail_discards (e : ErrKind) (s : State) : (fail e s).discards = s.discards := rfl
@[simp] theorem fail_retryLeft (e : ErrKind) (s : State) : (fail e s).retryLeft = s.retryLeft := rfl
@[simp] theorem fail_argSession (e : ErrKind) (s : State) : (fail e s).argSession = s.argSession := rfl
@[simp] theorem fail_argAddr (e : ErrKind) (s : State) : (fail e s).argAddr = s.argAddr := rfl
@[simp] theorem fail_argPort (e : ErrKind) (s : State) : (fail e s).argPort = s.argPort := rfl
@[simp] theorem fail_argLport (e : ErrKind) (s : State) : (fail e s).argLport = s.argLport := rfl
@[simp] theorem fail_argBudget (e : ErrKind) (s : State) : (fail e s).argBudget = s.argBudget := rfl
@[simp] theorem fail_connState (e : ErrKind) (s : State) : (fail e s).connState = .closed := rfl
@[simp] theorem fail_connValid (e : ErrKind) (s : State) : (fail e s).connValid = false := rfl
@[simp] theorem fail_connLocalSeq (e : ErrKind) (s : State) : (fail e s).connLocalSeq = s.connLocalSeq := rfl
@[simp] theorem fail_connRemoteAcked (e : ErrKind) (s : State) : (fail e s).connRemoteAcked = s.connRemoteAcked := rfl
@[simp] theorem fail_connSession (e : ErrKind) (s : State) : (fail e s).connSession = s.connSession := rfl
@[simp] theorem fail_isnReg (e : ErrKind) (s : State) : (fail e s).isnReg = s.isnReg := rfl
@[simp] theorem fail_peerIsn (e : ErrKind) (s : State) : (fail e s).peerIsn = s.peerIsn := rfl
@[simp] theorem fail_peerPort (e : ErrKind) (s : State) : (fail e s).peerPort = s.peerPort := rfl
@[simp] theorem fail_peerAddr (e : ErrKind) (s : State) : (fail e s).peerAddr = s.peerAddr := rfl
@[simp] theorem fail_txseg (e : ErrKind) (s : State) : (fail e s).txseg = s.txseg := rfl
@[simp] theorem fail_rxseg (e : ErrKind) (s : State) : (fail e s).rxseg = s.rxseg := rfl
@[simp] theorem fail_txbuf (e : ErrKind) (s : State) : (fail e s).txbuf = s.txbuf := rfl
@[simp] theorem fail_txlen (e : ErrKind) (s : State) : (fail e s).txlen = s.txlen := rfl
@[simp] theorem fail_rxbuf (e : ErrKind) (s : State) : (fail e s).rxbuf = s.rxbuf := rfl
@[simp] theorem fail_rxlen (e : ErrKind) (s : State) : (fail e s).rxlen = s.rxlen := rfl
@[simp] theorem fail_deadline (e : ErrKind) (s : State) : (fail e s).deadline = s.deadline := rfl
@[simp] theorem fail_nextIsn (e : ErrKind) (s : State) : (fail e s).nextIsn = s.nextIsn := rfl
@[simp] theorem fail_readData (e : ErrKind) (s : State) : (fail e s).readData = s.readData := rfl
@[simp] theorem fail_schedule (e : ErrKind) (s : State) : (fail e s).schedule = s.schedule := rfl
@[simp] theorem fail_tick (e : ErrKind) (s : State) : (fail e s).tick = s.tick := rfl

/-! `endCodec` -/
@[simp] theorem endCodec_params (e : ErrKind) (s : State) : (endCodec e s).params = s.params := rfl
@[simp] theorem endCodec_phase (e : ErrKind) (s : State) : (endCodec e s).phase = .idle := rfl
@[simp] theorem endCodec_outreq (e : ErrKind) (s : State) : (endCodec e s).outreq = none := rfl
@[simp] theorem endCodec_response (e : ErrKind) (s : State) : (endCodec e s).response = none := rfl
@[simp] theorem endCodec_cmd (e : ErrKind) (s : State) : (endCodec e s).cmd = s.cmd := rfl
@[simp] theorem endCodec_ie (e : ErrKind) (s : State) : (endCodec e s).ie = s.ie := rfl
@[simp] theorem endCodec_done (e : ErrKind) (s : State) : (endCodec e s).done = true := rfl
@[simp] theorem endCodec_err (e : ErrKind) (s : State) : (endCodec e s).err = e := rfl
@[simp] theorem endCodec_failState (e : ErrKind) (s : State) : (endCodec e s).failState = .closed := rfl
@[simp] theorem endCodec_malformedSeen (e : ErrKind) (s : State) : (endCodec e s).malformedSeen = s.malformedSeen := rfl
@[simp] theorem endCodec_cmdOverrun (e : ErrKind) (s : State) : (endCodec e s).cmdOverrun = s.cmdOverrun := rfl
@[simp] theorem endCodec_wrWhileBusy (e : ErrKind) (s : State) : (endCodec e s).wrWhileBusy = s.wrWhileBusy := rfl
@[simp] theorem endCodec_discards (e : ErrKind) (s : State) : (endCodec e s).discards = s.discards := rfl
@[simp] theorem endCodec_retryLeft (e : ErrKind) (s : State) : (endCodec e s).retryLeft = s.retryLeft := rfl
@[simp] theorem endCodec_argSession (e : ErrKind) (s : State) : (endCodec e s).argSession = s.argSession := rfl
@[simp] theorem endCodec_argAddr (e : ErrKind) (s : State) : (endCodec e s).argAddr = s.argAddr := rfl
@[simp] theorem endCodec_argPort (e : ErrKind) (s : State) : (endCodec e s).argPort = s.argPort := rfl
@[simp] theorem endCodec_argLport (e : ErrKind) (s : State) : (endCodec e s).argLport = s.argLport := rfl
@[simp] theorem endCodec_argBudget (e : ErrKind) (s : State) : (endCodec e s).argBudget = s.argBudget := rfl
@[simp] theorem endCodec_connState (e : ErrKind) (s : State) : (endCodec e s).connState = s.connState := rfl
@[simp] theorem endCodec_connValid (e : ErrKind) (s : State) : (endCodec e s).connValid = s.connValid := rfl
@[simp] theorem endCodec_connLocalSeq (e : ErrKind) (s : State) : (endCodec e s).connLocalSeq = s.connLocalSeq := rfl
@[simp] theorem endCodec_connRemoteAcked (e : ErrKind) (s : State) : (endCodec e s).connRemoteAcked = s.connRemoteAcked := rfl
@[simp] theorem endCodec_connSession (e : ErrKind) (s : State) : (endCodec e s).connSession = s.connSession := rfl
@[simp] theorem endCodec_isnReg (e : ErrKind) (s : State) : (endCodec e s).isnReg = s.isnReg := rfl
@[simp] theorem endCodec_peerIsn (e : ErrKind) (s : State) : (endCodec e s).peerIsn = s.peerIsn := rfl
@[simp] theorem endCodec_peerPort (e : ErrKind) (s : State) : (endCodec e s).peerPort = s.peerPort := rfl
@[simp] theorem endCodec_peerAddr (e : ErrKind) (s : State) : (endCodec e s).peerAddr = s.peerAddr := rfl
@[simp] theorem endCodec_txseg (e : ErrKind) (s : State) : (endCodec e s).txseg = s.txseg := rfl
@[simp] theorem endCodec_rxseg (e : ErrKind) (s : State) : (endCodec e s).rxseg = s.rxseg := rfl
@[simp] theorem endCodec_txbuf (e : ErrKind) (s : State) : (endCodec e s).txbuf = s.txbuf := rfl
@[simp] theorem endCodec_txlen (e : ErrKind) (s : State) : (endCodec e s).txlen = s.txlen := rfl
@[simp] theorem endCodec_rxbuf (e : ErrKind) (s : State) : (endCodec e s).rxbuf = s.rxbuf := rfl
@[simp] theorem endCodec_rxlen (e : ErrKind) (s : State) : (endCodec e s).rxlen = s.rxlen := rfl
@[simp] theorem endCodec_deadline (e : ErrKind) (s : State) : (endCodec e s).deadline = s.deadline := rfl
@[simp] theorem endCodec_nextIsn (e : ErrKind) (s : State) : (endCodec e s).nextIsn = s.nextIsn := rfl
@[simp] theorem endCodec_readData (e : ErrKind) (s : State) : (endCodec e s).readData = s.readData := rfl
@[simp] theorem endCodec_schedule (e : ErrKind) (s : State) : (endCodec e s).schedule = s.schedule := rfl
@[simp] theorem endCodec_tick (e : ErrKind) (s : State) : (endCodec e s).tick = s.tick := rfl

/-! `rxStore` -/
@[simp] theorem rxStore_params (r : Word) (bs : List Byte) (s : State) : (rxStore r bs s).params = s.params := rfl
@[simp] theorem rxStore_phase (r : Word) (bs : List Byte) (s : State) : (rxStore r bs s).phase = s.phase := rfl
@[simp] theorem rxStore_outreq (r : Word) (bs : List Byte) (s : State) : (rxStore r bs s).outreq = s.outreq := rfl
@[simp] theorem rxStore_response (r : Word) (bs : List Byte) (s : State) : (rxStore r bs s).response = s.response := rfl
@[simp] theorem rxStore_cmd (r : Word) (bs : List Byte) (s : State) : (rxStore r bs s).cmd = s.cmd := rfl
@[simp] theorem rxStore_ie (r : Word) (bs : List Byte) (s : State) : (rxStore r bs s).ie = s.ie := rfl
@[simp] theorem rxStore_done (r : Word) (bs : List Byte) (s : State) : (rxStore r bs s).done = s.done := rfl
@[simp] theorem rxStore_err (r : Word) (bs : List Byte) (s : State) : (rxStore r bs s).err = s.err := rfl
@[simp] theorem rxStore_failState (r : Word) (bs : List Byte) (s : State) : (rxStore r bs s).failState = s.failState := rfl
@[simp] theorem rxStore_malformedSeen (r : Word) (bs : List Byte) (s : State) : (rxStore r bs s).malformedSeen = s.malformedSeen := rfl
@[simp] theorem rxStore_cmdOverrun (r : Word) (bs : List Byte) (s : State) : (rxStore r bs s).cmdOverrun = s.cmdOverrun := rfl
@[simp] theorem rxStore_wrWhileBusy (r : Word) (bs : List Byte) (s : State) : (rxStore r bs s).wrWhileBusy = s.wrWhileBusy := rfl
@[simp] theorem rxStore_discards (r : Word) (bs : List Byte) (s : State) : (rxStore r bs s).discards = s.discards := rfl
@[simp] theorem rxStore_retryLeft (r : Word) (bs : List Byte) (s : State) : (rxStore r bs s).retryLeft = s.retryLeft := rfl
@[simp] theorem rxStore_argSession (r : Word) (bs : List Byte) (s : State) : (rxStore r bs s).argSession = s.argSession := rfl
@[simp] theorem rxStore_argAddr (r : Word) (bs : List Byte) (s : State) : (rxStore r bs s).argAddr = s.argAddr := rfl
@[simp] theorem rxStore_argPort (r : Word) (bs : List Byte) (s : State) : (rxStore r bs s).argPort = s.argPort := rfl
@[simp] theorem rxStore_argLport (r : Word) (bs : List Byte) (s : State) : (rxStore r bs s).argLport = s.argLport := rfl
@[simp] theorem rxStore_argBudget (r : Word) (bs : List Byte) (s : State) : (rxStore r bs s).argBudget = s.argBudget := rfl
@[simp] theorem rxStore_connState (r : Word) (bs : List Byte) (s : State) : (rxStore r bs s).connState = s.connState := rfl
@[simp] theorem rxStore_connValid (r : Word) (bs : List Byte) (s : State) : (rxStore r bs s).connValid = s.connValid := rfl
@[simp] theorem rxStore_connLocalSeq (r : Word) (bs : List Byte) (s : State) : (rxStore r bs s).connLocalSeq = s.connLocalSeq := rfl
@[simp] theorem rxStore_connRemoteAcked (r : Word) (bs : List Byte) (s : State) : (rxStore r bs s).connRemoteAcked = s.connRemoteAcked := rfl
@[simp] theorem rxStore_connSession (r : Word) (bs : List Byte) (s : State) : (rxStore r bs s).connSession = s.connSession := rfl
@[simp] theorem rxStore_isnReg (r : Word) (bs : List Byte) (s : State) : (rxStore r bs s).isnReg = s.isnReg := rfl
@[simp] theorem rxStore_peerIsn (r : Word) (bs : List Byte) (s : State) : (rxStore r bs s).peerIsn = s.peerIsn := rfl
@[simp] theorem rxStore_peerPort (r : Word) (bs : List Byte) (s : State) : (rxStore r bs s).peerPort = s.peerPort := rfl
@[simp] theorem rxStore_peerAddr (r : Word) (bs : List Byte) (s : State) : (rxStore r bs s).peerAddr = s.peerAddr := rfl
@[simp] theorem rxStore_txseg (r : Word) (bs : List Byte) (s : State) : (rxStore r bs s).txseg = s.txseg := rfl
@[simp] theorem rxStore_rxseg (r : Word) (bs : List Byte) (s : State) : (rxStore r bs s).rxseg = s.rxseg := rfl
@[simp] theorem rxStore_txbuf (r : Word) (bs : List Byte) (s : State) : (rxStore r bs s).txbuf = s.txbuf := rfl
@[simp] theorem rxStore_txlen (r : Word) (bs : List Byte) (s : State) : (rxStore r bs s).txlen = s.txlen := rfl
@[simp] theorem rxStore_rxbuf (r : Word) (bs : List Byte) (s : State) : (rxStore r bs s).rxbuf = Memory.writeBytes s.rxbuf 0 (bs.take (rxCount s.params r)) := rfl
@[simp] theorem rxStore_rxlen (r : Word) (bs : List Byte) (s : State) : (rxStore r bs s).rxlen = BitVec.ofNat 16 (rxCount s.params r) := rfl
@[simp] theorem rxStore_deadline (r : Word) (bs : List Byte) (s : State) : (rxStore r bs s).deadline = s.deadline := rfl
@[simp] theorem rxStore_nextIsn (r : Word) (bs : List Byte) (s : State) : (rxStore r bs s).nextIsn = s.nextIsn := rfl
@[simp] theorem rxStore_readData (r : Word) (bs : List Byte) (s : State) : (rxStore r bs s).readData = s.readData := rfl
@[simp] theorem rxStore_schedule (r : Word) (bs : List Byte) (s : State) : (rxStore r bs s).schedule = s.schedule := rfl
@[simp] theorem rxStore_tick (r : Word) (bs : List Byte) (s : State) : (rxStore r bs s).tick = s.tick := rfl

/-! `loadRx` -/
@[simp] theorem loadRx_params (d : Segment) (s : State) : (loadRx d s).params = s.params := rfl
@[simp] theorem loadRx_phase (d : Segment) (s : State) : (loadRx d s).phase = s.phase := rfl
@[simp] theorem loadRx_outreq (d : Segment) (s : State) : (loadRx d s).outreq = s.outreq := rfl
@[simp] theorem loadRx_response (d : Segment) (s : State) : (loadRx d s).response = s.response := rfl
@[simp] theorem loadRx_cmd (d : Segment) (s : State) : (loadRx d s).cmd = s.cmd := rfl
@[simp] theorem loadRx_ie (d : Segment) (s : State) : (loadRx d s).ie = s.ie := rfl
@[simp] theorem loadRx_done (d : Segment) (s : State) : (loadRx d s).done = s.done := rfl
@[simp] theorem loadRx_err (d : Segment) (s : State) : (loadRx d s).err = s.err := rfl
@[simp] theorem loadRx_failState (d : Segment) (s : State) : (loadRx d s).failState = s.failState := rfl
@[simp] theorem loadRx_malformedSeen (d : Segment) (s : State) : (loadRx d s).malformedSeen = s.malformedSeen := rfl
@[simp] theorem loadRx_cmdOverrun (d : Segment) (s : State) : (loadRx d s).cmdOverrun = s.cmdOverrun := rfl
@[simp] theorem loadRx_wrWhileBusy (d : Segment) (s : State) : (loadRx d s).wrWhileBusy = s.wrWhileBusy := rfl
@[simp] theorem loadRx_discards (d : Segment) (s : State) : (loadRx d s).discards = s.discards := rfl
@[simp] theorem loadRx_retryLeft (d : Segment) (s : State) : (loadRx d s).retryLeft = s.retryLeft := rfl
@[simp] theorem loadRx_argSession (d : Segment) (s : State) : (loadRx d s).argSession = s.argSession := rfl
@[simp] theorem loadRx_argAddr (d : Segment) (s : State) : (loadRx d s).argAddr = s.argAddr := rfl
@[simp] theorem loadRx_argPort (d : Segment) (s : State) : (loadRx d s).argPort = s.argPort := rfl
@[simp] theorem loadRx_argLport (d : Segment) (s : State) : (loadRx d s).argLport = s.argLport := rfl
@[simp] theorem loadRx_argBudget (d : Segment) (s : State) : (loadRx d s).argBudget = s.argBudget := rfl
@[simp] theorem loadRx_connState (d : Segment) (s : State) : (loadRx d s).connState = s.connState := rfl
@[simp] theorem loadRx_connValid (d : Segment) (s : State) : (loadRx d s).connValid = s.connValid := rfl
@[simp] theorem loadRx_connLocalSeq (d : Segment) (s : State) : (loadRx d s).connLocalSeq = s.connLocalSeq := rfl
@[simp] theorem loadRx_connRemoteAcked (d : Segment) (s : State) : (loadRx d s).connRemoteAcked = s.connRemoteAcked := rfl
@[simp] theorem loadRx_connSession (d : Segment) (s : State) : (loadRx d s).connSession = s.connSession := rfl
@[simp] theorem loadRx_isnReg (d : Segment) (s : State) : (loadRx d s).isnReg = s.isnReg := rfl
@[simp] theorem loadRx_peerIsn (d : Segment) (s : State) : (loadRx d s).peerIsn = s.peerIsn := rfl
@[simp] theorem loadRx_peerPort (d : Segment) (s : State) : (loadRx d s).peerPort = s.peerPort := rfl
@[simp] theorem loadRx_peerAddr (d : Segment) (s : State) : (loadRx d s).peerAddr = s.peerAddr := rfl
@[simp] theorem loadRx_txseg (d : Segment) (s : State) : (loadRx d s).txseg = s.txseg := rfl
@[simp] theorem loadRx_rxseg (d : Segment) (s : State) : (loadRx d s).rxseg = d := rfl
@[simp] theorem loadRx_txbuf (d : Segment) (s : State) : (loadRx d s).txbuf = s.txbuf := rfl
@[simp] theorem loadRx_txlen (d : Segment) (s : State) : (loadRx d s).txlen = s.txlen := rfl
@[simp] theorem loadRx_rxbuf (d : Segment) (s : State) : (loadRx d s).rxbuf = s.rxbuf := rfl
@[simp] theorem loadRx_rxlen (d : Segment) (s : State) : (loadRx d s).rxlen = s.rxlen := rfl
@[simp] theorem loadRx_deadline (d : Segment) (s : State) : (loadRx d s).deadline = s.deadline := rfl
@[simp] theorem loadRx_nextIsn (d : Segment) (s : State) : (loadRx d s).nextIsn = s.nextIsn := rfl
@[simp] theorem loadRx_readData (d : Segment) (s : State) : (loadRx d s).readData = s.readData := rfl
@[simp] theorem loadRx_schedule (d : Segment) (s : State) : (loadRx d s).schedule = s.schedule := rfl
@[simp] theorem loadRx_tick (d : Segment) (s : State) : (loadRx d s).tick = s.tick := rfl

/-! `ckbind` -/
@[simp] theorem ckbind_params (a : Addr) (s : State) : (ckbind a s).params = s.params := by simp only [ckbind, request]
@[simp] theorem ckbind_phase (a : Addr) (s : State) : (ckbind a s).phase = s.phase := by simp only [ckbind, request]
@[simp] theorem ckbind_outreq (a : Addr) (s : State) : (ckbind a s).outreq = some (.csum s.argSession a s.params.protoNum (encodeFn { s.txseg with checksum := 0 })) := by simp only [ckbind, request]
@[simp] theorem ckbind_response (a : Addr) (s : State) : (ckbind a s).response = none := by simp only [ckbind, request]
@[simp] theorem ckbind_cmd (a : Addr) (s : State) : (ckbind a s).cmd = s.cmd := by simp only [ckbind, request]
@[simp] theorem ckbind_ie (a : Addr) (s : State) : (ckbind a s).ie = s.ie := by simp only [ckbind, request]
@[simp] theorem ckbind_done (a : Addr) (s : State) : (ckbind a s).done = s.done := by simp only [ckbind, request]
@[simp] theorem ckbind_err (a : Addr) (s : State) : (ckbind a s).err = s.err := by simp only [ckbind, request]
@[simp] theorem ckbind_failState (a : Addr) (s : State) : (ckbind a s).failState = s.failState := by simp only [ckbind, request]
@[simp] theorem ckbind_malformedSeen (a : Addr) (s : State) : (ckbind a s).malformedSeen = s.malformedSeen := by simp only [ckbind, request]
@[simp] theorem ckbind_cmdOverrun (a : Addr) (s : State) : (ckbind a s).cmdOverrun = s.cmdOverrun := by simp only [ckbind, request]
@[simp] theorem ckbind_wrWhileBusy (a : Addr) (s : State) : (ckbind a s).wrWhileBusy = s.wrWhileBusy := by simp only [ckbind, request]
@[simp] theorem ckbind_discards (a : Addr) (s : State) : (ckbind a s).discards = s.discards := by simp only [ckbind, request]
@[simp] theorem ckbind_retryLeft (a : Addr) (s : State) : (ckbind a s).retryLeft = s.retryLeft := by simp only [ckbind, request]
@[simp] theorem ckbind_argSession (a : Addr) (s : State) : (ckbind a s).argSession = s.argSession := by simp only [ckbind, request]
@[simp] theorem ckbind_argAddr (a : Addr) (s : State) : (ckbind a s).argAddr = s.argAddr := by simp only [ckbind, request]
@[simp] theorem ckbind_argPort (a : Addr) (s : State) : (ckbind a s).argPort = s.argPort := by simp only [ckbind, request]
@[simp] theorem ckbind_argLport (a : Addr) (s : State) : (ckbind a s).argLport = s.argLport := by simp only [ckbind, request]
@[simp] theorem ckbind_argBudget (a : Addr) (s : State) : (ckbind a s).argBudget = s.argBudget := by simp only [ckbind, request]
@[simp] theorem ckbind_connState (a : Addr) (s : State) : (ckbind a s).connState = s.connState := by simp only [ckbind, request]
@[simp] theorem ckbind_connValid (a : Addr) (s : State) : (ckbind a s).connValid = s.connValid := by simp only [ckbind, request]
@[simp] theorem ckbind_connLocalSeq (a : Addr) (s : State) : (ckbind a s).connLocalSeq = s.connLocalSeq := by simp only [ckbind, request]
@[simp] theorem ckbind_connRemoteAcked (a : Addr) (s : State) : (ckbind a s).connRemoteAcked = s.connRemoteAcked := by simp only [ckbind, request]
@[simp] theorem ckbind_connSession (a : Addr) (s : State) : (ckbind a s).connSession = s.connSession := by simp only [ckbind, request]
@[simp] theorem ckbind_isnReg (a : Addr) (s : State) : (ckbind a s).isnReg = s.isnReg := by simp only [ckbind, request]
@[simp] theorem ckbind_peerIsn (a : Addr) (s : State) : (ckbind a s).peerIsn = s.peerIsn := by simp only [ckbind, request]
@[simp] theorem ckbind_peerPort (a : Addr) (s : State) : (ckbind a s).peerPort = s.peerPort := by simp only [ckbind, request]
@[simp] theorem ckbind_peerAddr (a : Addr) (s : State) : (ckbind a s).peerAddr = s.peerAddr := by simp only [ckbind, request]
@[simp] theorem ckbind_txseg (a : Addr) (s : State) : (ckbind a s).txseg = { s.txseg with checksum := 0 } := by simp only [ckbind, request]
@[simp] theorem ckbind_rxseg (a : Addr) (s : State) : (ckbind a s).rxseg = s.rxseg := by simp only [ckbind, request]
@[simp] theorem ckbind_txbuf (a : Addr) (s : State) : (ckbind a s).txbuf = Memory.writeBytes s.txbuf 0 (encodeFn { s.txseg with checksum := 0 }) := by simp only [ckbind, request]
@[simp] theorem ckbind_txlen (a : Addr) (s : State) : (ckbind a s).txlen = BitVec.ofNat 7 (headerLen { s.txseg with checksum := 0 }) := by simp only [ckbind, request]
@[simp] theorem ckbind_rxbuf (a : Addr) (s : State) : (ckbind a s).rxbuf = s.rxbuf := by simp only [ckbind, request]
@[simp] theorem ckbind_rxlen (a : Addr) (s : State) : (ckbind a s).rxlen = s.rxlen := by simp only [ckbind, request]
@[simp] theorem ckbind_deadline (a : Addr) (s : State) : (ckbind a s).deadline = s.deadline := by simp only [ckbind, request]
@[simp] theorem ckbind_nextIsn (a : Addr) (s : State) : (ckbind a s).nextIsn = s.nextIsn := by simp only [ckbind, request]
@[simp] theorem ckbind_readData (a : Addr) (s : State) : (ckbind a s).readData = s.readData := by simp only [ckbind, request]
@[simp] theorem ckbind_schedule (a : Addr) (s : State) : (ckbind a s).schedule = s.schedule := by simp only [ckbind, request]
@[simp] theorem ckbind_tick (a : Addr) (s : State) : (ckbind a s).tick = s.tick := by simp only [ckbind, request]

/-! `insertCk` -/
@[simp] theorem insertCk_params (c : Half) (s : State) : (insertCk c s).params = s.params := rfl
@[simp] theorem insertCk_phase (c : Half) (s : State) : (insertCk c s).phase = s.phase := rfl
@[simp] theorem insertCk_outreq (c : Half) (s : State) : (insertCk c s).outreq = s.outreq := rfl
@[simp] theorem insertCk_response (c : Half) (s : State) : (insertCk c s).response = s.response := rfl
@[simp] theorem insertCk_cmd (c : Half) (s : State) : (insertCk c s).cmd = s.cmd := rfl
@[simp] theorem insertCk_ie (c : Half) (s : State) : (insertCk c s).ie = s.ie := rfl
@[simp] theorem insertCk_done (c : Half) (s : State) : (insertCk c s).done = s.done := rfl
@[simp] theorem insertCk_err (c : Half) (s : State) : (insertCk c s).err = s.err := rfl
@[simp] theorem insertCk_failState (c : Half) (s : State) : (insertCk c s).failState = s.failState := rfl
@[simp] theorem insertCk_malformedSeen (c : Half) (s : State) : (insertCk c s).malformedSeen = s.malformedSeen := rfl
@[simp] theorem insertCk_cmdOverrun (c : Half) (s : State) : (insertCk c s).cmdOverrun = s.cmdOverrun := rfl
@[simp] theorem insertCk_wrWhileBusy (c : Half) (s : State) : (insertCk c s).wrWhileBusy = s.wrWhileBusy := rfl
@[simp] theorem insertCk_discards (c : Half) (s : State) : (insertCk c s).discards = s.discards := rfl
@[simp] theorem insertCk_retryLeft (c : Half) (s : State) : (insertCk c s).retryLeft = s.retryLeft := rfl
@[simp] theorem insertCk_argSession (c : Half) (s : State) : (insertCk c s).argSession = s.argSession := rfl
@[simp] theorem insertCk_argAddr (c : Half) (s : State) : (insertCk c s).argAddr = s.argAddr := rfl
@[simp] theorem insertCk_argPort (c : Half) (s : State) : (insertCk c s).argPort = s.argPort := rfl
@[simp] theorem insertCk_argLport (c : Half) (s : State) : (insertCk c s).argLport = s.argLport := rfl
@[simp] theorem insertCk_argBudget (c : Half) (s : State) : (insertCk c s).argBudget = s.argBudget := rfl
@[simp] theorem insertCk_connState (c : Half) (s : State) : (insertCk c s).connState = s.connState := rfl
@[simp] theorem insertCk_connValid (c : Half) (s : State) : (insertCk c s).connValid = s.connValid := rfl
@[simp] theorem insertCk_connLocalSeq (c : Half) (s : State) : (insertCk c s).connLocalSeq = s.connLocalSeq := rfl
@[simp] theorem insertCk_connRemoteAcked (c : Half) (s : State) : (insertCk c s).connRemoteAcked = s.connRemoteAcked := rfl
@[simp] theorem insertCk_connSession (c : Half) (s : State) : (insertCk c s).connSession = s.connSession := rfl
@[simp] theorem insertCk_isnReg (c : Half) (s : State) : (insertCk c s).isnReg = s.isnReg := rfl
@[simp] theorem insertCk_peerIsn (c : Half) (s : State) : (insertCk c s).peerIsn = s.peerIsn := rfl
@[simp] theorem insertCk_peerPort (c : Half) (s : State) : (insertCk c s).peerPort = s.peerPort := rfl
@[simp] theorem insertCk_peerAddr (c : Half) (s : State) : (insertCk c s).peerAddr = s.peerAddr := rfl
@[simp] theorem insertCk_txseg (c : Half) (s : State) : (insertCk c s).txseg = { s.txseg with checksum := c } := rfl
@[simp] theorem insertCk_rxseg (c : Half) (s : State) : (insertCk c s).rxseg = s.rxseg := rfl
@[simp] theorem insertCk_txbuf (c : Half) (s : State) : (insertCk c s).txbuf = Memory.writeBytes s.txbuf 16 (put16 c) := rfl
@[simp] theorem insertCk_txlen (c : Half) (s : State) : (insertCk c s).txlen = s.txlen := rfl
@[simp] theorem insertCk_rxbuf (c : Half) (s : State) : (insertCk c s).rxbuf = s.rxbuf := rfl
@[simp] theorem insertCk_rxlen (c : Half) (s : State) : (insertCk c s).rxlen = s.rxlen := rfl
@[simp] theorem insertCk_deadline (c : Half) (s : State) : (insertCk c s).deadline = s.deadline := rfl
@[simp] theorem insertCk_nextIsn (c : Half) (s : State) : (insertCk c s).nextIsn = s.nextIsn := rfl
@[simp] theorem insertCk_readData (c : Half) (s : State) : (insertCk c s).readData = s.readData := rfl
@[simp] theorem insertCk_schedule (c : Half) (s : State) : (insertCk c s).schedule = s.schedule := rfl
@[simp] theorem insertCk_tick (c : Half) (s : State) : (insertCk c s).tick = s.tick := rfl

/-! `requestSend` -/
@[simp] theorem requestSend_params (a : Addr) (s : State) : (requestSend a s).params = s.params := rfl
@[simp] theorem requestSend_phase (a : Addr) (s : State) : (requestSend a s).phase = s.phase := rfl
@[simp] theorem requestSend_outreq (a : Addr) (s : State) : (requestSend a s).outreq = some (.send s.argSession a s.params.protoNum (txValid s)) := rfl
@[simp] theorem requestSend_response (a : Addr) (s : State) : (requestSend a s).response = none := rfl
@[simp] theorem requestSend_cmd (a : Addr) (s : State) : (requestSend a s).cmd = s.cmd := rfl
@[simp] theorem requestSend_ie (a : Addr) (s : State) : (requestSend a s).ie = s.ie := rfl
@[simp] theorem requestSend_done (a : Addr) (s : State) : (requestSend a s).done = s.done := rfl
@[simp] theorem requestSend_err (a : Addr) (s : State) : (requestSend a s).err = s.err := rfl
@[simp] theorem requestSend_failState (a : Addr) (s : State) : (requestSend a s).failState = s.failState := rfl
@[simp] theorem requestSend_malformedSeen (a : Addr) (s : State) : (requestSend a s).malformedSeen = s.malformedSeen := rfl
@[simp] theorem requestSend_cmdOverrun (a : Addr) (s : State) : (requestSend a s).cmdOverrun = s.cmdOverrun := rfl
@[simp] theorem requestSend_wrWhileBusy (a : Addr) (s : State) : (requestSend a s).wrWhileBusy = s.wrWhileBusy := rfl
@[simp] theorem requestSend_discards (a : Addr) (s : State) : (requestSend a s).discards = s.discards := rfl
@[simp] theorem requestSend_retryLeft (a : Addr) (s : State) : (requestSend a s).retryLeft = s.retryLeft := rfl
@[simp] theorem requestSend_argSession (a : Addr) (s : State) : (requestSend a s).argSession = s.argSession := rfl
@[simp] theorem requestSend_argAddr (a : Addr) (s : State) : (requestSend a s).argAddr = s.argAddr := rfl
@[simp] theorem requestSend_argPort (a : Addr) (s : State) : (requestSend a s).argPort = s.argPort := rfl
@[simp] theorem requestSend_argLport (a : Addr) (s : State) : (requestSend a s).argLport = s.argLport := rfl
@[simp] theorem requestSend_argBudget (a : Addr) (s : State) : (requestSend a s).argBudget = s.argBudget := rfl
@[simp] theorem requestSend_connState (a : Addr) (s : State) : (requestSend a s).connState = s.connState := rfl
@[simp] theorem requestSend_connValid (a : Addr) (s : State) : (requestSend a s).connValid = s.connValid := rfl
@[simp] theorem requestSend_connLocalSeq (a : Addr) (s : State) : (requestSend a s).connLocalSeq = s.connLocalSeq := rfl
@[simp] theorem requestSend_connRemoteAcked (a : Addr) (s : State) : (requestSend a s).connRemoteAcked = s.connRemoteAcked := rfl
@[simp] theorem requestSend_connSession (a : Addr) (s : State) : (requestSend a s).connSession = s.connSession := rfl
@[simp] theorem requestSend_isnReg (a : Addr) (s : State) : (requestSend a s).isnReg = s.isnReg := rfl
@[simp] theorem requestSend_peerIsn (a : Addr) (s : State) : (requestSend a s).peerIsn = s.peerIsn := rfl
@[simp] theorem requestSend_peerPort (a : Addr) (s : State) : (requestSend a s).peerPort = s.peerPort := rfl
@[simp] theorem requestSend_peerAddr (a : Addr) (s : State) : (requestSend a s).peerAddr = s.peerAddr := rfl
@[simp] theorem requestSend_txseg (a : Addr) (s : State) : (requestSend a s).txseg = s.txseg := rfl
@[simp] theorem requestSend_rxseg (a : Addr) (s : State) : (requestSend a s).rxseg = s.rxseg := rfl
@[simp] theorem requestSend_txbuf (a : Addr) (s : State) : (requestSend a s).txbuf = s.txbuf := rfl
@[simp] theorem requestSend_txlen (a : Addr) (s : State) : (requestSend a s).txlen = s.txlen := rfl
@[simp] theorem requestSend_rxbuf (a : Addr) (s : State) : (requestSend a s).rxbuf = s.rxbuf := rfl
@[simp] theorem requestSend_rxlen (a : Addr) (s : State) : (requestSend a s).rxlen = s.rxlen := rfl
@[simp] theorem requestSend_deadline (a : Addr) (s : State) : (requestSend a s).deadline = s.deadline := rfl
@[simp] theorem requestSend_nextIsn (a : Addr) (s : State) : (requestSend a s).nextIsn = s.nextIsn := rfl
@[simp] theorem requestSend_readData (a : Addr) (s : State) : (requestSend a s).readData = s.readData := rfl
@[simp] theorem requestSend_schedule (a : Addr) (s : State) : (requestSend a s).schedule = s.schedule := rfl
@[simp] theorem requestSend_tick (a : Addr) (s : State) : (requestSend a s).tick = s.tick := rfl

/-! `fetched` -/
@[simp] theorem fetched_params (s : State) : (fetched s).params = s.params := rfl
@[simp] theorem fetched_phase (s : State) : (fetched s).phase = s.phase := rfl
@[simp] theorem fetched_outreq (s : State) : (fetched s).outreq = s.outreq := rfl
@[simp] theorem fetched_response (s : State) : (fetched s).response = s.response := rfl
@[simp] theorem fetched_cmd (s : State) : (fetched s).cmd = s.cmd := rfl
@[simp] theorem fetched_ie (s : State) : (fetched s).ie = s.ie := rfl
@[simp] theorem fetched_done (s : State) : (fetched s).done = s.done := rfl
@[simp] theorem fetched_err (s : State) : (fetched s).err = s.err := rfl
@[simp] theorem fetched_failState (s : State) : (fetched s).failState = s.failState := rfl
@[simp] theorem fetched_malformedSeen (s : State) : (fetched s).malformedSeen = s.malformedSeen := rfl
@[simp] theorem fetched_cmdOverrun (s : State) : (fetched s).cmdOverrun = s.cmdOverrun := rfl
@[simp] theorem fetched_wrWhileBusy (s : State) : (fetched s).wrWhileBusy = s.wrWhileBusy := rfl
@[simp] theorem fetched_discards (s : State) : (fetched s).discards = s.discards := rfl
@[simp] theorem fetched_retryLeft (s : State) : (fetched s).retryLeft = s.retryLeft := rfl
@[simp] theorem fetched_argSession (s : State) : (fetched s).argSession = s.argSession := rfl
@[simp] theorem fetched_argAddr (s : State) : (fetched s).argAddr = s.argAddr := rfl
@[simp] theorem fetched_argPort (s : State) : (fetched s).argPort = s.argPort := rfl
@[simp] theorem fetched_argLport (s : State) : (fetched s).argLport = s.argLport := rfl
@[simp] theorem fetched_argBudget (s : State) : (fetched s).argBudget = s.argBudget := rfl
@[simp] theorem fetched_connState (s : State) : (fetched s).connState = s.connState := rfl
@[simp] theorem fetched_connValid (s : State) : (fetched s).connValid = s.connValid := rfl
@[simp] theorem fetched_connLocalSeq (s : State) : (fetched s).connLocalSeq = s.connLocalSeq := rfl
@[simp] theorem fetched_connRemoteAcked (s : State) : (fetched s).connRemoteAcked = s.connRemoteAcked := rfl
@[simp] theorem fetched_connSession (s : State) : (fetched s).connSession = s.connSession := rfl
@[simp] theorem fetched_isnReg (s : State) : (fetched s).isnReg = s.isnReg := rfl
@[simp] theorem fetched_peerIsn (s : State) : (fetched s).peerIsn = s.peerIsn := rfl
@[simp] theorem fetched_peerPort (s : State) : (fetched s).peerPort = s.peerPort := rfl
@[simp] theorem fetched_peerAddr (s : State) : (fetched s).peerAddr = s.peerAddr := rfl
@[simp] theorem fetched_txseg (s : State) : (fetched s).txseg = s.txseg := rfl
@[simp] theorem fetched_rxseg (s : State) : (fetched s).rxseg = s.rxseg := rfl
@[simp] theorem fetched_txbuf (s : State) : (fetched s).txbuf = s.txbuf := rfl
@[simp] theorem fetched_txlen (s : State) : (fetched s).txlen = s.txlen := rfl
@[simp] theorem fetched_rxbuf (s : State) : (fetched s).rxbuf = s.rxbuf := rfl
@[simp] theorem fetched_rxlen (s : State) : (fetched s).rxlen = s.rxlen := rfl
@[simp] theorem fetched_deadline (s : State) : (fetched s).deadline = s.deadline := rfl
@[simp] theorem fetched_nextIsn (s : State) : (fetched s).nextIsn = s.nextIsn := rfl
@[simp] theorem fetched_readData (s : State) : (fetched s).readData = s.readData := rfl
@[simp] theorem fetched_schedule (s : State) : (fetched s).schedule = s.schedule.tail := rfl
@[simp] theorem fetched_tick (s : State) : (fetched s).tick = s.tick + 1 := rfl

end Sys2Proof.Machine
end

