-- ==== Sys2Proof/Laws/Codec.lean ====
section
/-! SUPPORT. The segment codec: what an encoding holds at each offset, and the encoding in `TXBUF` (40_codec.md). -/

namespace Sys2Proof.Machine

/-- The option bytes of a header (30_encoding.md R123). -/
def optBytes (S : Segment) : List Byte := S.opt.toList.take (4 * (S.doff.toNat - 5))

/-- The twenty fixed bytes of a header, one by one (30_encoding.md R120). -/
def fixedBytes (S : Segment) : List Byte :=
  [S.srcPort.extractLsb' 8 8, S.srcPort.extractLsb' 0 8, S.dstPort.extractLsb' 8 8, S.dstPort.extractLsb' 0 8,
   S.seq.extractLsb' 24 8, S.seq.extractLsb' 16 8, S.seq.extractLsb' 8 8, S.seq.extractLsb' 0 8,
   S.ack.extractLsb' 24 8, S.ack.extractLsb' 16 8, S.ack.extractLsb' 8 8, S.ack.extractLsb' 0 8,
   byte12 S, S.flags, S.window.extractLsb' 8 8, S.window.extractLsb' 0 8,
   S.checksum.extractLsb' 8 8, S.checksum.extractLsb' 0 8, S.urgent.extractLsb' 8 8, S.urgent.extractLsb' 0 8]

theorem encodeFn_eq (S : Segment) : encodeFn S = fixedBytes S ++ optBytes S := rfl

@[simp] theorem length_fixedBytes (S : Segment) : (fixedBytes S).length = 20 := rfl

theorem length_optBytes (S : Segment) : (optBytes S).length = 4 * (S.doff.toNat - 5) := by
  have := S.doff.isLt
  simp [optBytes]; omega

theorem length_encodeFn (S : Segment) : (encodeFn S).length = 20 + 4 * (S.doff.toNat - 5) := by
  simp [encodeFn_eq, length_optBytes]

/-- An encoding has `4*doff` bytes (40_codec.md R160). -/
theorem length_encodeFn_wf {S : Segment} (h : 5 ≤ S.doff.toNat) : (encodeFn S).length = headerLen S := by
  rw [length_encodeFn, headerLen]; omega

theorem length_encodeFn_le (S : Segment) : (encodeFn S).length ≤ 60 := by
  have := S.doff.isLt
  rw [length_encodeFn]; omega

theorem byteAt_encodeFn_fixed (S : Segment) {o : Nat} (h : o < 20) :
    byteAt (encodeFn S) o = byteAt (fixedBytes S) o := by
  rw [encodeFn_eq, byteAt, byteAt, List.getD_append _ _ _ _ (by simpa using h)]

theorem byteAt_encodeFn_opt (S : Segment) {i : Nat} (h : i < 4 * (S.doff.toNat - 5)) (hi : i < 40) :
    byteAt (encodeFn S) (20 + i) = S.opt[i] := by
  rw [encodeFn_eq, byteAt, List.getD_append_right _ _ _ _ (by simp)]
  simp [optBytes, List.getD_eq_getElem?_getD, h, hi]

/-- A byte of an encoding outside offsets 16 and 17 does not depend on the checksum. -/
theorem encodeFn_checksum_other (S : Segment) (c : Half) {o : Nat} (h16 : o ≠ 16) (h17 : o ≠ 17) :
    (encodeFn { S with checksum := c })[o]? = (encodeFn S)[o]? := by
  rw [encodeFn_eq, encodeFn_eq]
  simp only [fixedBytes, optBytes, byte12]
  rcases Nat.lt_or_ge o 20 with h | h
  · rw [List.getElem?_append_left (by simpa using h), List.getElem?_append_left (by simpa using h)]
    rcases o with _ | _ | _ | _ | _ | _ | _ | _ | _ | _ | _ | _ | _ | _ | _ | _ | _ | _ | _ | _ | o <;> first
      | rfl
      | omega
  · rw [List.getElem?_append_right (by simpa using h), List.getElem?_append_right (by simpa using h)]
    rfl

/-- The bytes of an encoding at offsets 16 and 17 are those of the checksum. -/
theorem encodeFn_checksum (S : Segment) :
    (encodeFn S)[16]? = some (S.checksum.extractLsb' 8 8) ∧ (encodeFn S)[17]? = some (S.checksum.extractLsb' 0 8) :=
  ⟨rfl, rfl⟩

theorem txlen_headerLen (S : Segment) : (BitVec.ofNat 7 (headerLen S)).toNat = headerLen S := by
  have := S.doff.isLt
  simp [headerLen]; omega

/-- Writing the encoding of a segment from offset 0 puts its bytes below its length. -/
theorem read_writeBytes_encodeFn (m : Memory) {S : Segment} {o : Nat} (h : o < (encodeFn S).length) :
    Memory.read (Memory.writeBytes m 0 (encodeFn S)) o = (encodeFn S)[o]? := by
  rw [read_writeBytes, dif_pos ⟨Nat.zero_le _, by simpa using h⟩]
  simp [h]

/-- `INSERT_CK` keeps `TXBUF[0 .. TXLEN-1] = ENCODE_FN(TXSEG)` at every offset (40_codec.md R173). -/
theorem read_insertCk {s : State} {o : Nat} (c : Half)
    (h : Memory.read s.txbuf o = (encodeFn s.txseg)[o]?) :
    Memory.read (insertCk c s).txbuf o = (encodeFn (insertCk c s).txseg)[o]? := by
  have hl : (put16 c).length = 2 := rfl
  rw [insertCk_txbuf, insertCk_txseg, read_writeBytes]
  by_cases h1 : o = 16
  · rw [h1, dif_pos ⟨by omega, by rw [hl]; omega⟩, (encodeFn_checksum _).1]; rfl
  · by_cases h2 : o = 17
    · rw [h2, dif_pos ⟨by omega, by rw [hl]; omega⟩, (encodeFn_checksum _).2]; rfl
    · rw [dif_neg (by rw [hl]; omega), encodeFn_checksum_other _ _ h1 h2, h]

end Sys2Proof.Machine
end

