-- ==== Sys2Proof/Laws/Ops.lean ====
section
/-! SUPPORT. What each shared operation can do, said once: the lemmas later proofs cite instead of unfolding it. -/

namespace Sys2Proof.Machine

/-- A `GO` while busy. -/
theorem issue_busy {s : State} (cmd : BitVec 4) (ie : Bool) (start : State → State) (h : s.busy = true) :
    issue cmd ie start s = { s with ie := ie, cmdOverrun := true } := by
  have h' : ({ s with ie := ie } : State).busy = true := h
  simp [issue, h']

/-- A `GO` while idle. -/
theorem issue_idle {s : State} (cmd : BitVec 4) (ie : Bool) (start : State → State) (h : s.busy = false) :
    issue cmd ie start s = endStep (start (prologue { s with ie := ie, cmd := cmd })) := by
  have h' : ({ s with ie := ie } : State).busy = false := h
  simp [issue, h']

theorem busy_iff (s : State) : s.busy = true ↔ s.phase ≠ .idle := by simp [State.busy]

theorem idle_iff (s : State) : s.busy = false ↔ s.phase = .idle := by simp [State.busy]

/-- A discard: the budget is spent and the command ends, or it is counted down. -/
theorem discard_cases (next : Phase) (s : State) :
    (s.retryLeft = 0 ∧
      discard next s = fail .handshakeTimeout { s with discards := nextDiscards s.discards }) ∨
    (s.retryLeft ≠ 0 ∧
      discard next s =
        { s with discards := nextDiscards s.discards, retryLeft := s.retryLeft - 1, phase := next }) := by
  by_cases h : s.retryLeft = 0
  · exact .inl ⟨h, if_pos h⟩
  · exact .inr ⟨h, if_neg h⟩

/-- An issue step: the deadline ends the command, or the receive is requested. -/
theorem issueRecv_cases (wait : Phase) (s : State) :
    (s.deadline = true ∧ issueRecv wait s = fail .handshakeTimeout s) ∨
    (s.deadline = false ∧
      issueRecv wait s = { request (.recv s.argSession s.params.rxBufBytes) s with phase := wait }) := by
  cases h : s.deadline
  · exact .inr ⟨rfl, by simp [issueRecv, h]⟩
  · exact .inl ⟨rfl, by simp [issueRecv, h]⟩

/-- A `RECV` response step: failure, malformed, mismatch or match (60_exceptions.md R314). -/
theorem recvRespond_cases (back : Phase) (m : Segment → State → Bool) (acc : Segment → State → State) (r : Word)
    (bs : List Byte) (s : State) :
    (nonPositive r = true ∧ recvRespond back m acc r bs s = fail .receiveFailure s) ∨
    (nonPositive r = false ∧ decodeFn (rxValid (rxStore r bs s)) = none ∧
      recvRespond back m acc r bs s = discard back { rxStore r bs s with malformedSeen := true }) ∨
    (∃ d, nonPositive r = false ∧ decodeFn (rxValid (rxStore r bs s)) = some d ∧
      m d (loadRx d (rxStore r bs s)) = false ∧
      recvRespond back m acc r bs s = discard back (loadRx d (rxStore r bs s))) ∨
    (∃ d, nonPositive r = false ∧ decodeFn (rxValid (rxStore r bs s)) = some d ∧
      m d (loadRx d (rxStore r bs s)) = true ∧
      recvRespond back m acc r bs s = acc d (loadRx d (rxStore r bs s))) := by
  cases hr : nonPositive r
  · cases hd : decodeFn (rxValid (rxStore r bs s)) with
    | none => exact .inr (.inl ⟨rfl, rfl, by simp [recvRespond, hr, hd]⟩)
    | some d =>
      cases hm : m d (loadRx d (rxStore r bs s))
      · exact .inr (.inr (.inl ⟨d, rfl, rfl, hm, by simp [recvRespond, hr, hd, hm]⟩))
      · exact .inr (.inr (.inr ⟨d, rfl, rfl, hm, by simp [recvRespond, hr, hd, hm]⟩))
  · exact .inl ⟨rfl, by simp [recvRespond, hr]⟩

/-- A `SEND` response step. -/
theorem sendRespond_cases (sent : State → State) (r : Word) (s : State) :
    (nonPositive r = true ∧ sendRespond sent r s = fail .sendFailure s) ∨
    (nonPositive r = false ∧ sendRespond sent r s = sent s) := by
  cases h : nonPositive r
  · exact .inr ⟨rfl, by simp [sendRespond, h]⟩
  · exact .inl ⟨rfl, by simp [sendRespond, h]⟩

/-- A response is delivered, or nothing changes. -/
theorem deliver_cases (r : Response) (s : State) :
    (canAnswer r s = true ∧ deliver r s = { s with response := some (r.keep s.params) }) ∨
    (canAnswer r s = false ∧ deliver r s = s) := by
  cases h : canAnswer r s
  · exact .inr ⟨rfl, by simp [deliver, h]⟩
  · exact .inl ⟨rfl, by simp [deliver, h]⟩

theorem canAnswer_iff (r : Response) (s : State) :
    canAnswer r s = true ↔
      r.shapeOk s.params = true ∧ s.response = none ∧ s.outreq.map Request.port = some r.port := by
  simp [canAnswer, and_assoc]

/-- Keeping the low `n` bits of a value is reduction modulo `2^n`. -/
theorem toNat_keep {n w : Nat} (h : n ≤ w) (v : BitVec w) : ((v.setWidth n).setWidth w).toNat = v.toNat % 2 ^ n := by
  rw [BitVec.toNat_setWidth, BitVec.toNat_setWidth]
  exact Nat.mod_eq_of_lt (Nat.lt_of_lt_of_le (Nat.mod_lt _ (Nat.two_pow_pos n)) (Nat.pow_le_pow_right (by omega) h))

/-- Values of the width of a port are carried whole (00_scope.md R9). -/
@[simp] theorem keepAddr_keepAddr (P : Params) (a : Addr) : keepAddr P (keepAddr P a) = keepAddr P a := by
  have h := Nat.le_of_lt_succ P.addrBits.isLt
  apply BitVec.eq_of_toNat_eq
  unfold keepAddr
  rw [toNat_keep h, toNat_keep h, Nat.mod_mod]

@[simp] theorem keepSession_keepSession (P : Params) (a : Session) :
    keepSession P (keepSession P a) = keepSession P a := by
  have h := Nat.le_of_lt_succ P.sessionBits.isLt
  apply BitVec.eq_of_toNat_eq
  unfold keepSession
  rw [toNat_keep h, toNat_keep h, Nat.mod_mod]

/-- Nothing is carried of zero but zero. -/
@[simp] theorem keepAddr_zero (P : Params) : keepAddr P 0 = 0 := by simp [keepAddr]

@[simp] theorem keepSession_zero (P : Params) : keepSession P 0 = 0 := by simp [keepSession]

/-- Narrowing a response keeps its port, its shape and its result. -/
@[simp] theorem keep_port (P : Params) (r : Response) : (r.keep P).port = r.port := by cases r <;> rfl

@[simp] theorem keep_shapeOk (P : Params) (r : Response) : (r.keep P).shapeOk P = r.shapeOk P := by cases r <;> rfl

@[simp] theorem keep_keep (P : Params) (r : Response) : (r.keep P).keep P = r.keep P := by
  cases r <;> simp [Response.keep]

/-- What is received fits the buffer (60_exceptions.md R308). -/
theorem rxCount_le (P : Params) (r : Word) : rxCount P r ≤ P.rxBufBytes := Nat.min_le_right _ _

@[simp] theorem rxStore_rxlen_toNat (r : Word) (bs : List Byte) (s : State) :
    (rxStore r bs s).rxlen.toNat = rxCount s.params r := by
  have := rxCount_le s.params r
  have := s.params.rxCapacity.property
  simp only [rxStore_rxlen, BitVec.toNat_ofNat]
  exact Nat.mod_eq_of_lt (by unfold Params.rxBufBytes Config.rxWindowBytes at *; omega)

/-- The bytes of a response are what a decode in the same step reads (20_memory.md R89, 60_exceptions.md R308). -/
theorem rxValid_rxStore {r : Word} {bs : List Byte} (s : State) (h : bs.length = rxCount s.params r) :
    rxValid (rxStore r bs s) = bs := by
  unfold rxValid
  rw [rxStore_rxlen_toNat]
  refine prefixBytes_eq _ h fun o ho => ?_
  rw [rxStore_rxbuf, List.take_of_length_le (Nat.le_of_eq h), read_writeBytes,
    dif_pos ⟨Nat.zero_le _, by simpa [h] using ho⟩]
  simp

/-- The draw of the `ISN`, where the environment has settled it. -/
theorem isnDraw_some {s : State} {v : Word} (h : s.nextIsn = some v) : isnDraw s = v := by
  simp [isnDraw, h]

end Sys2Proof.Machine
end

