-- ==== Sys2Proof/Laws/Block.lean ====
section
/-! SUPPORT. The block's step in each phase (10_state.md R48), and the one step of the machine. -/

namespace Sys2Proof.Machine

theorem blockStep_idle {s : State} (h : s.phase = .idle) : blockStep s = s := by simp [blockStep, h]

/-- A phase that waits does nothing without the response it waits for (20_memory.md R86, R106). -/
theorem blockStep_waiting {s : State} (h : s.blockEnabled = false) : blockStep s = s := by
  unfold State.blockEnabled at h
  cases hp : s.phase <;> simp only [hp, Phase.waitsOn] at h <;> simp only [blockStep, hp]
  case aSynackRecvIssue | pSynRecvIssue | pAckRecvIssue => simp at h
  all_goals
    cases hr : s.response with
    | none => simp [onCsum, onSend, onRecv, onSess, hr]
    | some r => cases r <;> simp_all [onCsum, onSend, onRecv, onSess, Response.port]

theorem blockStep_cCsumWait {s : State} {c : Half} (hp : s.phase = .cCsumWait) (hr : s.response = some (.csum c)) :
    blockStep s = endStep (csumRespond c (clearPort s)) := by simp [blockStep, hp, onCsum, hr]

theorem blockStep_aSynCsumWait {s : State} {c : Half} (hp : s.phase = .aSynCsumWait)
    (hr : s.response = some (.csum c)) : blockStep s = endStep (synCsumRespond c (clearPort s)) := by
  simp [blockStep, hp, onCsum, hr]

theorem blockStep_aSynSendWait {s : State} {r : Word} (hp : s.phase = .aSynSendWait)
    (hr : s.response = some (.send r)) : blockStep s = endStep (sendRespond synSent r (clearPort s)) := by
  simp [blockStep, hp, onSend, hr]

theorem blockStep_aSynackRecvIssue {s : State} (hp : s.phase = .aSynackRecvIssue) :
    blockStep s = endStep (issueRecv .aSynackRecvWait s) := by simp [blockStep, hp]

theorem blockStep_aSynackRecvWait {s : State} {r : Word} {bs : List Byte} {a : Addr}
    (hp : s.phase = .aSynackRecvWait) (hr : s.response = some (.recv r bs a)) :
    blockStep s = endStep (recvRespond .aSynackRecvIssue matchSynack acceptSynack r bs (clearPort s)) := by
  simp [blockStep, hp, onRecv, hr, synackRecvRespond]

theorem blockStep_aAckCsumWait {s : State} {c : Half} (hp : s.phase = .aAckCsumWait)
    (hr : s.response = some (.csum c)) : blockStep s = endStep (ackCsumRespond c (clearPort s)) := by
  simp [blockStep, hp, onCsum, hr]

theorem blockStep_aAckSendWait {s : State} {r : Word} (hp : s.phase = .aAckSendWait)
    (hr : s.response = some (.send r)) : blockStep s = endStep (sendRespond completeActive r (clearPort s)) := by
  simp [blockStep, hp, onSend, hr]

theorem blockStep_pSynRecvIssue {s : State} (hp : s.phase = .pSynRecvIssue) :
    blockStep s = endStep (issueRecv .pSynRecvWait s) := by simp [blockStep, hp]

theorem blockStep_pSynRecvWait {s : State} {r : Word} {bs : List Byte} {a : Addr}
    (hp : s.phase = .pSynRecvWait) (hr : s.response = some (.recv r bs a)) :
    blockStep s = endStep (recvRespond .pSynRecvIssue matchSyn (acceptSyn a) r bs (clearPort s)) := by
  simp [blockStep, hp, onRecv, hr, synRecvRespond]

theorem blockStep_pSynackCsumWait {s : State} {c : Half} (hp : s.phase = .pSynackCsumWait)
    (hr : s.response = some (.csum c)) : blockStep s = endStep (synackCsumRespond c (clearPort s)) := by
  simp [blockStep, hp, onCsum, hr]

theorem blockStep_pSynackSendWait {s : State} {r : Word} (hp : s.phase = .pSynackSendWait)
    (hr : s.response = some (.send r)) : blockStep s = endStep (sendRespond synackSent r (clearPort s)) := by
  simp [blockStep, hp, onSend, hr]

theorem blockStep_pAckRecvIssue {s : State} (hp : s.phase = .pAckRecvIssue) :
    blockStep s = endStep (issueRecv .pAckRecvWait s) := by simp [blockStep, hp]

theorem blockStep_pAckRecvWait {s : State} {r : Word} {bs : List Byte} {a : Addr}
    (hp : s.phase = .pAckRecvWait) (hr : s.response = some (.recv r bs a)) :
    blockStep s = endStep (recvRespond .pAckRecvIssue matchAck acceptAck r bs (clearPort s)) := by
  simp [blockStep, hp, onRecv, hr, ackRecvRespond]

theorem blockStep_pSessWait {s : State} {ok : Bool} {h : Session} (hp : s.phase = .pSessWait)
    (hr : s.response = some (.sess ok h)) : blockStep s = endStep (sessRespond ok h (clearPort s)) := by
  simp [blockStep, hp, onSess, hr]

/-- A step the block takes leaves no draw settled (30_encoding.md R145). -/
theorem blockStep_nextIsn {s : State} (h : s.blockEnabled = true) : (blockStep s).nextIsn = none := by
  unfold State.blockEnabled at h
  cases hp : s.phase <;> rcases hr : s.response with _ | (_ | _ | _ | _) <;>
    simp_all [blockStep, Phase.waitsOn, onCsum, onSend, onRecv, onSess, Response.port]

/-- The block's step, said once: it is disabled and changes nothing, or it is the rule its phase names. -/
theorem blockStep_cases (s : State) :
    blockStep s = s ∨
    (∃ c, s.phase = .cCsumWait ∧ s.response = some (.csum c) ∧ blockStep s = endStep (csumRespond c (clearPort s))) ∨
    (∃ c, s.phase = .aSynCsumWait ∧ s.response = some (.csum c) ∧ blockStep s = endStep (synCsumRespond c (clearPort s))) ∨
    (∃ r, s.phase = .aSynSendWait ∧ s.response = some (.send r) ∧
      blockStep s = endStep (sendRespond synSent r (clearPort s))) ∨
    (s.phase = .aSynackRecvIssue ∧ blockStep s = endStep (issueRecv .aSynackRecvWait s)) ∨
    (∃ r bs a, s.phase = .aSynackRecvWait ∧ s.response = some (.recv r bs a) ∧
      blockStep s = endStep (recvRespond .aSynackRecvIssue matchSynack acceptSynack r bs (clearPort s))) ∨
    (∃ c, s.phase = .aAckCsumWait ∧ s.response = some (.csum c) ∧ blockStep s = endStep (ackCsumRespond c (clearPort s))) ∨
    (∃ r, s.phase = .aAckSendWait ∧ s.response = some (.send r) ∧
      blockStep s = endStep (sendRespond completeActive r (clearPort s))) ∨
    (s.phase = .pSynRecvIssue ∧ blockStep s = endStep (issueRecv .pSynRecvWait s)) ∨
    (∃ r bs a, s.phase = .pSynRecvWait ∧ s.response = some (.recv r bs a) ∧
      blockStep s = endStep (recvRespond .pSynRecvIssue matchSyn (acceptSyn a) r bs (clearPort s))) ∨
    (∃ c, s.phase = .pSynackCsumWait ∧ s.response = some (.csum c) ∧
      blockStep s = endStep (synackCsumRespond c (clearPort s))) ∨
    (∃ r, s.phase = .pSynackSendWait ∧ s.response = some (.send r) ∧
      blockStep s = endStep (sendRespond synackSent r (clearPort s))) ∨
    (s.phase = .pAckRecvIssue ∧ blockStep s = endStep (issueRecv .pAckRecvWait s)) ∨
    (∃ r bs a, s.phase = .pAckRecvWait ∧ s.response = some (.recv r bs a) ∧
      blockStep s = endStep (recvRespond .pAckRecvIssue matchAck acceptAck r bs (clearPort s))) ∨
    (∃ ok h, s.phase = .pSessWait ∧ s.response = some (.sess ok h) ∧
      blockStep s = endStep (sessRespond ok h (clearPort s))) := by
  cases he : s.blockEnabled
  · exact .inl (blockStep_waiting he)
  · right
    unfold State.blockEnabled at he
    cases hp : s.phase <;> simp only [hp, Phase.waitsOn] at he
    case idle => simp at he
    case aSynackRecvIssue => simp [blockStep_aSynackRecvIssue hp]
    case pSynRecvIssue => simp [blockStep_pSynRecvIssue hp]
    case pAckRecvIssue => simp [blockStep_pAckRecvIssue hp]
    all_goals
      cases hr : s.response with
      | none => simp [hr] at he
      | some r =>
        cases r <;> simp [hr, Response.port] at he
        simp [hp, hr, blockStep, onCsum, onSend, onRecv, onSess, synackRecvRespond, synRecvRespond, ackRecvRespond]

end Sys2Proof.Machine
end

