-- ==== Sys2Proof/Laws/Step.lean ====
section
/-! SUPPORT. The instruction and the step of the machine, said once. -/

namespace Sys2Proof.Machine

/-- The code, the `IE` bit and the start rule of a command; `none` for the two control actions. -/
def startOf : Instr → Option (BitVec 4 × Bool × (State → State))
  | .encode ie => some (0x1, ie, startEncode)
  | .decode ie => some (0x2, ie, startDecode)
  | .csum ie => some (0x3, ie, startCsum)
  | .connect ie => some (0x4, ie, startConnect)
  | .listen ie => some (0x5, ie, startListen)
  | .send ie => some (0x8, ie, endCodec .notImplemented)
  | .receive ie => some (0x9, ie, endCodec .notImplemented)
  | .close ie => some (0xA, ie, endCodec .notImplemented)
  | .illegal0 ie => some (0x0, ie, endCodec .badCommand)
  | .illegal6 ie => some (0x6, ie, endCodec .badCommand)
  | .illegal7 ie => some (0x7, ie, endCodec .badCommand)
  | .illegalB ie => some (0xB, ie, endCodec .badCommand)
  | .illegalC ie => some (0xC, ie, endCodec .badCommand)
  | .illegalD ie => some (0xD, ie, endCodec .badCommand)
  | .illegalE ie => some (0xE, ie, endCodec .badCommand)
  | .illegalF ie => some (0xF, ie, endCodec .badCommand)
  | .srst => none
  | .ctrlSet _ _ => none

/-- An instruction, said once: a command is issued, or it is one of the two control actions. -/
theorem exec_cases (i : Instr) (s : State) :
    (∃ c ie f, startOf i = some (c, ie, f) ∧ exec i s = .next (issue c ie f s)) ∨
    (i = .srst ∧ exec i s = .next (resetBlock s)) ∨
    (∃ c ie, i = .ctrlSet c ie ∧ exec i s = .next { s with ie := ie, cmd := if s.busy then s.cmd else c }) := by
  cases i
  case srst => exact .inr (.inl ⟨rfl, rfl⟩)
  case ctrlSet c ie => exact .inr (.inr ⟨c, ie, rfl, rfl⟩)
  all_goals exact .inl ⟨_, _, _, rfl, rfl⟩

/-- A start rule is one of the block's six. -/
theorem startOf_cases {i : Instr} {c : BitVec 4} {ie : Bool} {f : State → State} (h : startOf i = some (c, ie, f)) :
    (c = 0x1 ∧ f = startEncode) ∨ (c = 0x2 ∧ f = startDecode) ∨ (c = 0x3 ∧ f = startCsum) ∨
      (c = 0x4 ∧ f = startConnect) ∨ (c = 0x5 ∧ f = startListen) ∨ ∃ e, f = endCodec e := by
  cases i <;> simp only [startOf, Option.some.injEq, Prod.mk.injEq, reduceCtorEq] at h <;> obtain ⟨rfl, rfl, rfl⟩ := h
  case encode => simp
  case decode => simp
  case csum => simp
  case connect => simp
  case listen => simp
  all_goals exact .inr (.inr (.inr (.inr (.inr ⟨_, rfl⟩))))

theorem step_eq (s : State) : step s = takeTurn (nextTurn s) (fetched s) := rfl

/-- One step, said once: what each agent's turn leaves. -/
theorem step_cases {s t : State} (h : step s = .next t) :
    (∃ a, nextTurn s = .read a ∧ t = hostRead a (fetched s)) ∨
    (∃ a v i, nextTurn s = .write a v ∧ decode a v = .ok i ∧ exec i (fetched s) = .next t) ∨
    (∃ a v, nextTurn s = .write a v ∧ a ≠ ctrlAddr ∧ t = hostWrite a v (fetched s)) ∨
    (nextTurn s = .wait ∧ t = pollDone (fetched s)) ∨
    (∃ r, nextTurn s = .respond r ∧ t = deliver r (fetched s)) ∨
    (∃ l, nextTurn s = .deadline l ∧ t = setDeadline l (fetched s)) ∨
    (∃ v, nextTurn s = .isn v ∧ t = supplyIsn v (fetched s)) ∨
    (nextTurn s = .hardReset ∧ t = resetBlock (fetched s)) ∨
    (nextTurn s = .block ∧ t = blockStep (fetched s)) := by
  rw [step_eq] at h
  cases ht : nextTurn s <;> simp only [ht, takeTurn] at h
  case write a v =>
    by_cases ha : a = ctrlAddr
    · simp only [takeWrite, decode, ha, if_true] at h
      exact .inr (.inl ⟨a, v, decodeWord v, rfl, by simp [decode, ha], h⟩)
    · simp only [takeWrite, decode, ha, if_false, Host.Outcome.next.injEq] at h
      exact .inr (.inr (.inl ⟨a, v, rfl, ha, h.symm⟩))
  all_goals simp_all [hardReset]

/-- The turns a failed poll sorts, said once: the turns before the next one of another agent are the host's, and no turn
is lost or moved past one of its own kind. -/
theorem nextOther_spec {turns before after : List Turn} {u : Turn} (h : nextOther turns = (before, u, after)) :
    before.filter (fun t => !t.isHost) = [] ∧ u.isHost = false ∧
      (before ++ after).filter Turn.isHost = turns.filter Turn.isHost ∧
      u :: after.filter (fun t => !t.isHost) =
        if turns.filter (fun t => !t.isHost) = [] then [.block] else turns.filter fun t => !t.isHost := by
  induction turns generalizing before with
  | nil => cases h; simp [Turn.isHost]
  | cons t rest ih =>
    unfold nextOther at h
    split at h
    · rename_i ht
      cases h
      obtain ⟨h1, h2, h3, h4⟩ := ih rfl
      simp [ht, h1, h2, h3, h4]
    · rename_i ht
      cases h
      simp_all

/-- A register found at an address is one the block has, in its place in the register space (10_state.md R55). -/
theorem regOf_eq_some {P : Params} {a : BitVec 8} {r : Reg} :
    regOf P a = some r ↔ regAt a = some r ∧ r.mapped P = true := Option.filter_eq_some_iff

/-- A word of `RXBUF` found at an address is below the capacity. -/
theorem regOf_rxbuf {P : Params} {a : BitVec 8} {k : Fin 64} (h : regOf P a = some (.rxbuf k)) :
    k.val < P.rxBufBytes / 4 := by
  have := (regOf_eq_some.1 h).2
  simp only [Reg.mapped, decide_eq_true_eq] at this
  omega

/-- A plain register write that is not refused changes one register of those the host writes. -/
theorem hostWrite_cases (a : BitVec 8) (v : Word) (s : State) :
    hostWrite a v s = s ∨
    hostWrite a v s = writeStatus v s ∨
    (s.busy = true ∧ hostWrite a v s = { s with wrWhileBusy := true }) ∨
    (s.busy = false ∧
      (hostWrite a v s = { s with argSession := keepSession s.params v } ∨
        hostWrite a v s = { s with argPort := v.extractLsb' 0 16 } ∨
        hostWrite a v s = { s with argLport := v.extractLsb' 0 16 } ∨
        hostWrite a v s = { s with argBudget := v.extractLsb' 0 16 } ∨
        (∃ k, hostWrite a v s = { s with argAddr := keepAddr s.params (setAddrWord s.argAddr k v) }) ∨
        (∃ k, hostWrite a v s = { s with txseg := setView s.txseg k v }) ∨
        hostWrite a v s = { s with rxlen := clampRxlen s.params v } ∨
        (∃ k : Fin 64, k.val < s.params.rxBufBytes / 4 ∧
          hostWrite a v s = { s with rxbuf := Memory.writeBytes s.rxbuf (4 * k.val) (put32 v) }))) := by
  unfold hostWrite
  cases hr : regOf s.params a with
  | none => exact .inl rfl
  | some r =>
    simp only
    cases hb : s.busy
    · have ii (f : State → State) : idleOnly f s = f s := if_neg (by simp [hb])
      cases r <;> simp only [writeReg, ii]
      case status => exact .inr (.inl trivial)
      case argSession => exact .inr (.inr (.inr ⟨trivial, .inl trivial⟩))
      case argPort => exact .inr (.inr (.inr ⟨trivial, .inr (.inl trivial)⟩))
      case argLport => exact .inr (.inr (.inr ⟨trivial, .inr (.inr (.inl trivial))⟩))
      case argBudget => exact .inr (.inr (.inr ⟨trivial, .inr (.inr (.inr (.inl trivial)))⟩))
      case argAddr k => exact .inr (.inr (.inr ⟨trivial, .inr (.inr (.inr (.inr (.inl ⟨k, rfl⟩))))⟩))
      case txseg k => exact .inr (.inr (.inr ⟨trivial, .inr (.inr (.inr (.inr (.inr (.inl ⟨k, rfl⟩)))))⟩))
      case rxlen => exact .inr (.inr (.inr ⟨trivial, .inr (.inr (.inr (.inr (.inr (.inr (.inl trivial))))))⟩))
      case rxbuf k =>
        exact .inr (.inr (.inr ⟨trivial, .inr (.inr (.inr (.inr (.inr (.inr (.inr ⟨k, regOf_rxbuf hr, rfl⟩))))))⟩))
      all_goals exact .inl trivial
    · have ib (f : State → State) : idleOnly f s = { s with wrWhileBusy := true } := if_pos hb
      cases r <;> simp only [writeReg, ib]
      case status => exact .inr (.inl trivial)
      case argSession | argPort | argLport | argBudget | argAddr | txseg | rxlen | rxbuf =>
        exact .inr (.inr (.inl ⟨trivial, trivial⟩))
      all_goals exact .inl trivial

end Sys2Proof.Machine
end

