-- ==== Sys2Proof/Laws/Invariant.lean ====
section
/-! SUPPORT. A step, said once for a property and once for a relation: what a property must survive for every step to
keep it, and what a relation of the turn, the state before and the state after must hold of for every step to obey it. -/

namespace Sys2Proof.Machine

/-- A property that each kind of change keeps is kept by every step. The premises: the fields of the environment, the
host and the model alone; a delivered response, with the widths of its port; a reset; a step of the block; a `STATUS`
write; the bits a `CTRL` write may set at any time; the registers a host writes while idle, with values of the parametric
widths and words of `RXBUF` inside its capacity; the start rule of a command. -/
theorem step_keeps (P : State → Prop)
    (hframe : ∀ s sch tk rd dl isn, P s →
      P { s with schedule := sch, tick := tk, readData := rd, deadline := dl, nextIsn := isn })
    (hresp : ∀ s r, P s → canAnswer r s = true → P { s with response := some (r.keep s.params) })
    (hreset : ∀ s, P s → P (resetBlock s))
    (hblock : ∀ s, P s → P (blockStep s))
    (hstatus : ∀ s v, P s → P (writeStatus v s))
    (hbusyflags : ∀ s ie ov wr, P s → P { s with ie := ie, cmdOverrun := ov, wrWhileBusy := wr })
    (hidlearg : ∀ s c d e f, P s → s.phase = .idle →
      P { s with argPort := c, argLport := d, argBudget := e, cmd := f })
    (hidlesession : ∀ s v, P s → s.phase = .idle → P { s with argSession := keepSession s.params v })
    (hidleaddr : ∀ s a, P s → s.phase = .idle → P { s with argAddr := keepAddr s.params a })
    (hidletx : ∀ s x, P s → s.phase = .idle → P { s with txseg := x })
    (hidlerx : ∀ s (k : Fin 64) v, P s → k.val < s.params.rxBufBytes / 4 → s.phase = .idle →
      P { s with rxbuf := Memory.writeBytes s.rxbuf (4 * k.val) (put32 v) })
    (hidlerxl : ∀ s v, P s → s.phase = .idle → P { s with rxlen := clampRxlen s.params v })
    (hstart : ∀ i c ie f s, startOf i = some (c, ie, f) → P s → s.phase = .idle →
      P (f (prologue { s with ie := ie, cmd := c })))
    {s t : State} (h : P s) (hst : step s = .next t) : P t := by
  have hf : P (fetched s) := hframe s _ _ _ _ _ h
  rcases step_cases hst with ⟨a, -, rfl⟩ | ⟨a, v, i, -, -, he⟩ | ⟨a, v, -, -, rfl⟩ | ⟨-, rfl⟩ | ⟨r, -, rfl⟩ |
    ⟨l, -, rfl⟩ | ⟨v, -, rfl⟩ | ⟨-, rfl⟩ | ⟨-, rfl⟩
  · exact hframe (fetched s) _ _ _ _ _ hf
  · generalize fetched s = s at *
    rcases exec_cases i s with ⟨c, ie, f, hs, e⟩ | ⟨-, e⟩ | ⟨c, ie, -, e⟩ <;> rw [e] at he <;> cases he
    · cases hb : s.busy
      · rw [issue_idle _ _ _ hb]
        exact hframe _ _ _ _ _ none (hstart i c ie f s hs hf ((idle_iff s).1 hb))
      · rw [issue_busy _ _ _ hb]; exact hbusyflags s ie true s.wrWhileBusy hf
    · exact hreset s hf
    · cases hb : s.busy
      · have := hidlearg s s.argPort s.argLport s.argBudget c hf ((idle_iff s).1 hb)
        exact hbusyflags _ ie s.cmdOverrun s.wrWhileBusy this
      · exact hbusyflags _ ie s.cmdOverrun s.wrWhileBusy hf
  · generalize fetched s = s at *
    rcases hostWrite_cases a v s with e | e | ⟨-, e⟩ | ⟨hb, e⟩
    · rw [e]; exact hf
    · rw [e]; exact hstatus _ _ hf
    · rw [e]; exact hbusyflags s s.ie s.cmdOverrun true hf
    · have hp := (idle_iff s).1 hb
      rcases e with e | e | e | e | ⟨k, e⟩ | ⟨k, e⟩ | e | ⟨k, hk, e⟩ <;> rw [e]
      · exact hidlesession _ _ hf hp
      · exact hidlearg s _ s.argLport s.argBudget s.cmd hf hp
      · exact hidlearg s s.argPort _ s.argBudget s.cmd hf hp
      · exact hidlearg s s.argPort s.argLport _ s.cmd hf hp
      · exact hidleaddr _ _ hf hp
      · exact hidletx _ _ hf hp
      · exact hidlerxl _ _ hf hp
      · exact hidlerx _ _ _ hf hk hp
  · unfold pollDone
    have : P (hostRead 2 (fetched s)) := hframe (fetched s) _ _ _ _ _ hf
    generalize hostRead 2 (fetched s) = u at *
    simp only
    split
    · exact this
    · exact hframe u _ u.tick u.readData u.deadline u.nextIsn this
  · rcases deliver_cases r (fetched s) with ⟨hc, e⟩ | ⟨-, e⟩ <;> rw [e]
    · exact hresp _ _ hf hc
    · exact hf
  · exact hframe (fetched s) _ _ _ _ _ hf
  · exact hframe (fetched s) _ _ _ _ _ hf
  · exact hreset _ hf
  · exact hblock _ hf

/-- A decoded host write is of `CTRL`, and its word is the instruction's. -/
theorem decode_ok {a : BitVec 8} {v : Word} {i : Instr} (h : decode a v = .ok i) : a = ctrlAddr ∧ decodeWord v = i := by
  unfold decode at h
  split at h
  · exact ⟨‹_›, by injection h⟩
  · cases h

/-- A relation that holds of each agent's kind of step holds of every step. The state before is `fetched s`: it differs
from `s` in the schedule and the step's number. -/
theorem step_relates (R : Turn → State → State → Prop)
    (hread : ∀ a s, R (.read a) s (hostRead a s))
    (hwrite : ∀ a v s, a ≠ ctrlAddr → R (.write a v) s (hostWrite a v s))
    (hbusy : ∀ v c ie f s, startOf (decodeWord v) = some (c, ie, f) → s.phase ≠ .idle →
      R (.write ctrlAddr v) s { s with ie := ie, cmdOverrun := true })
    (hstart : ∀ v c ie f s, startOf (decodeWord v) = some (c, ie, f) → s.phase = .idle →
      R (.write ctrlAddr v) s (endStep (f (prologue { s with ie := ie, cmd := c }))))
    (hsrst : ∀ v s, decodeWord v = .srst → R (.write ctrlAddr v) s (resetBlock s))
    (hset : ∀ v c ie s, decodeWord v = .ctrlSet c ie →
      R (.write ctrlAddr v) s { s with ie := ie, cmd := if s.busy then s.cmd else c })
    (hwait : ∀ s, R .wait s (pollDone s))
    (hrespond : ∀ r s, R (.respond r) s (deliver r s))
    (hdeadline : ∀ l s, R (.deadline l) s (setDeadline l s))
    (hisn : ∀ v s, R (.isn v) s (supplyIsn v s))
    (hreset : ∀ s, R .hardReset s (resetBlock s))
    (hblock : ∀ s, R .block s (blockStep s))
    {s t : State} (h : step s = .next t) : R (nextTurn s) (fetched s) t := by
  rcases step_cases h with ⟨a, e, rfl⟩ | ⟨a, v, i, e, hd, he⟩ | ⟨a, v, e, hne, rfl⟩ | ⟨e, rfl⟩ | ⟨r, e, rfl⟩ |
    ⟨l, e, rfl⟩ | ⟨v, e, rfl⟩ | ⟨e, rfl⟩ | ⟨e, rfl⟩ <;> rw [e]
  · exact hread _ _
  · obtain ⟨rfl, hw⟩ := decode_ok hd
    rcases exec_cases i (fetched s) with ⟨c, ie, f, hs, e'⟩ | ⟨hi, e'⟩ | ⟨c, ie, hi, e'⟩ <;> rw [e'] at he <;> cases he
    · rw [← hw] at hs
      cases hb : (fetched s).busy
      · rw [issue_idle _ _ _ hb]; exact hstart _ _ _ _ _ hs ((idle_iff _).1 hb)
      · rw [issue_busy _ _ _ hb]; exact hbusy _ _ _ _ _ hs ((busy_iff _).1 hb)
    · exact hsrst _ _ (hw.trans hi)
    · exact hset _ _ _ _ (hw.trans hi)
  · exact hwrite _ _ _ hne
  · exact hwait _
  · exact hrespond _ _
  · exact hdeadline _ _
  · exact hisn _ _
  · exact hreset _
  · exact hblock _

/-- What a plain register write keeps. -/
theorem hostWrite_keeps (a : BitVec 8) (v : Word) (s : State) {β : Type} (g : State → β)
    (hstatus : ∀ s v, g (writeStatus v s) = g s) (hflag : ∀ s x, g { s with wrWhileBusy := x } = g s)
    (hregs : ∀ s a b c d e x l m,
      g { s with
        argSession := a, argAddr := b, argPort := c, argLport := d, argBudget := e
        txseg := x, rxlen := l, rxbuf := m } = g s) :
    g (hostWrite a v s) = g s := by
  have H := hregs s
  rcases hostWrite_cases a v s with e | e | ⟨-, e⟩ | ⟨-, e | e | e | e | ⟨k, e⟩ | ⟨k, e⟩ | e | ⟨k, -, e⟩⟩ <;> rw [e]
  · exact hstatus _ _
  · exact hflag _ _
  · exact H _ s.argAddr s.argPort s.argLport s.argBudget s.txseg s.rxlen s.rxbuf
  · exact H s.argSession s.argAddr _ s.argLport s.argBudget s.txseg s.rxlen s.rxbuf
  · exact H s.argSession s.argAddr s.argPort _ s.argBudget s.txseg s.rxlen s.rxbuf
  · exact H s.argSession s.argAddr s.argPort s.argLport _ s.txseg s.rxlen s.rxbuf
  · exact H s.argSession _ s.argPort s.argLport s.argBudget s.txseg s.rxlen s.rxbuf
  · exact H s.argSession s.argAddr s.argPort s.argLport s.argBudget _ s.rxlen s.rxbuf
  · exact H s.argSession s.argAddr s.argPort s.argLport s.argBudget s.txseg _ s.rxbuf
  · exact H s.argSession s.argAddr s.argPort s.argLport s.argBudget s.txseg s.rxlen _

/-- What a poll keeps. -/
theorem pollDone_keeps (s : State) {β : Type} (g : State → β)
    (h : ∀ s x y, g { s with schedule := x, readData := y } = g s) : g (pollDone s) = g s := by
  unfold pollDone
  simp only
  split
  · exact h s s.schedule _
  · exact h s _ _

/-- What a delivery keeps. -/
theorem deliver_keeps (r : Response) (s : State) {β : Type} (g : State → β)
    (h : ∀ s x, g { s with response := x } = g s) : g (deliver r s) = g s := by
  rcases deliver_cases r s with ⟨-, e⟩ | ⟨-, e⟩ <;> rw [e]
  exact h _ _

end Sys2Proof.Machine
end

