-- ==== Sys2Proof/Laws/PerInstr.lean ====
section
/-! SUPPORT. What holds of every instruction as syntax, one lemma for each constructor. -/

namespace Sys2Proof.Laws

/-- The word the encoder gives an instruction has the bits its row of spec/opcode_table.json fixes. -/
def RowFixed.Statement (i : Instr) : Prop := encodeWord i &&& rowMask i = rowMatch i

theorem RowFixed.encode (ie : Bool) : RowFixed.Statement (.encode ie) := by cases ie <;> rfl
theorem RowFixed.decode (ie : Bool) : RowFixed.Statement (.decode ie) := by cases ie <;> rfl
theorem RowFixed.csum (ie : Bool) : RowFixed.Statement (.csum ie) := by cases ie <;> rfl
theorem RowFixed.connect (ie : Bool) : RowFixed.Statement (.connect ie) := by cases ie <;> rfl
theorem RowFixed.listen (ie : Bool) : RowFixed.Statement (.listen ie) := by cases ie <;> rfl
theorem RowFixed.send (ie : Bool) : RowFixed.Statement (.send ie) := by cases ie <;> rfl
theorem RowFixed.receive (ie : Bool) : RowFixed.Statement (.receive ie) := by cases ie <;> rfl
theorem RowFixed.close (ie : Bool) : RowFixed.Statement (.close ie) := by cases ie <;> rfl
theorem RowFixed.illegal0 (ie : Bool) : RowFixed.Statement (.illegal0 ie) := by cases ie <;> rfl
theorem RowFixed.illegal6 (ie : Bool) : RowFixed.Statement (.illegal6 ie) := by cases ie <;> rfl
theorem RowFixed.illegal7 (ie : Bool) : RowFixed.Statement (.illegal7 ie) := by cases ie <;> rfl
theorem RowFixed.illegalB (ie : Bool) : RowFixed.Statement (.illegalB ie) := by cases ie <;> rfl
theorem RowFixed.illegalC (ie : Bool) : RowFixed.Statement (.illegalC ie) := by cases ie <;> rfl
theorem RowFixed.illegalD (ie : Bool) : RowFixed.Statement (.illegalD ie) := by cases ie <;> rfl
theorem RowFixed.illegalE (ie : Bool) : RowFixed.Statement (.illegalE ie) := by cases ie <;> rfl
theorem RowFixed.illegalF (ie : Bool) : RowFixed.Statement (.illegalF ie) := by cases ie <;> rfl
theorem RowFixed.srst : RowFixed.Statement .srst := rfl
theorem RowFixed.ctrlSet (cmd : BitVec 4) (ie : Bool) : RowFixed.Statement (.ctrlSet cmd ie) := by
  revert cmd ie; unfold RowFixed.Statement; decide

end Sys2Proof.Laws
end

