-- ==== Sys2Proof/Laws/Request.lean ====
section
/-! SUPPORT. The checksum binding and the requests that carry an encoded segment (40_codec.md R170, R173). -/

namespace Sys2Proof.Machine

/-- The binding leaves the segment's encoding in `TXBUF`. -/
theorem ckbind_txEncoded (a : Addr) {s : State} (h5 : 5 ≤ s.txseg.doff.toNat) : (ckbind a s).TxEncoded := by
  unfold State.TxEncoded
  rw [ckbind_txseg, ckbind_txlen, ckbind_txbuf]
  refine ⟨h5, txlen_headerLen _, fun o ho => read_writeBytes_encodeFn _ ?_⟩
  rw [length_encodeFn_wf (by exact h5)]; exact ho

/-- The binding asks for the checksum of the encoding, with the checksum field zero. -/
theorem ckbind_asksChecksum (a : Addr) {s : State} (h5 : 5 ≤ s.txseg.doff.toNat) : (ckbind a s).AsksChecksum a := by
  refine ⟨ckbind_txEncoded a h5, ?_, ?_⟩
  · rw [ckbind_txseg]
  · rw [ckbind_outreq, ckbind_txseg, ckbind_argSession, ckbind_params]

/-- Inserting the checksum keeps `TXBUF` an encoding of `TXSEG`. -/
theorem insertCk_txEncoded (c : Half) {s : State} (h : s.TxEncoded) : (insertCk c s).TxEncoded :=
  ⟨h.1, h.2.1, fun o ho => read_insertCk c (h.2.2 o ho)⟩

/-- The bytes a send request copies are the encoding. -/
theorem txValid_eq {s : State} (h : s.TxEncoded) : txValid s = encodeFn s.txseg := by
  unfold txValid
  have hl := length_encodeFn_wf h.1
  refine prefixBytes_eq _ (by rw [hl, h.2.1]) fun o ho => ?_
  rw [h.2.2 o (h.2.1 ▸ ho)]
  simp

/-- The send request carries the encoding. -/
theorem requestSend_asksSend (a : Addr) {s : State} (h : s.TxEncoded) : (requestSend a s).AsksSend a := by
  refine ⟨h, ?_⟩
  rw [requestSend_outreq, txValid_eq h]; rfl

end Sys2Proof.Machine
end

