-- ==== Sys2Proof/Tests/Slice0.lean ====
section
/-! SUPPORT. Tests. Their expected results are the vectors of spec/95_test_vectors.md (cited as V-…), worked out there from
the rules, or words written out from 30_encoding.md R140 and R141. The theorems `witness_…` show, for each obligation
with hypotheses, concrete values that meet them. -/

namespace Sys2Proof.Tests

open Sys2Proof.Machine

/-! ## Helpers -/

/-- The state a step answers. -/
def out (o : Host.Outcome State Fault Refusal) : State :=
  match o with
  | .next t => t
  | .fault _ => State.reset
  | .refused _ => State.reset

def bytes (xs : List Nat) : List Byte := xs.map (BitVec.ofNat 8)

/-- The arguments of P2 and P3: session 1, `A_SRV`, ports 7000, a budget of 1, and the next draw 0x100. -/
def ready : State :=
  { State.reset with
    argSession := 1, argAddr := 0x20010DB8000000000000000000000001, argPort := 7000, argLport := 7000, argBudget := 1
    nextIsn := some 0x100 }

/-- V-E3. -/
def synE3 : Segment :=
  { Segment.zero with srcPort := 7000, dstPort := 7000, seq := 0x12345678, doff := 5, flags := 0x02, window := 1000 }

/-- V-E4, with its option bytes past the header zero. -/
def optE4 : Segment where
  srcPort := 1
  dstPort := 2
  seq := 3
  ack := 4
  doff := 6
  rsvd := 0
  ns := 0
  flags := 0x10
  window := 5
  checksum := 6
  urgent := 7
  opt := Vector.ofFn fun i => (bytes [0x02, 0x04, 0x05, 0xB4]).getD i.val 0

/-- The base buffer `b0` of V-D1 to V-D8. -/
def b0 : List Byte :=
  bytes [0x1B, 0x58, 0x00, 0x50, 0xDE, 0xAD, 0xBE, 0xEF, 0x01, 0x02, 0x03, 0x04, 0x50, 0x18, 0x12, 0x34, 0xAB, 0xCD,
    0x00, 0x01]

/-- The SYN-ACK P2 accepts: `seq 0x900`, `ack 0x101`. -/
def synackBytes : List Byte :=
  bytes [0x1B, 0x58, 0x1B, 0x58, 0, 0, 9, 0, 0, 0, 1, 1, 0x50, 0x12, 3, 0xE8, 0xAA, 0xAA, 0, 0]

/-- The SYN P3 accepts: `seq 0x100`. -/
def synBytes : List Byte := bytes [0x1B, 0x58, 0x1B, 0x58, 0, 0, 1, 0, 0, 0, 0, 0, 0x50, 2, 3, 0xE8, 0x11, 0x11, 0, 0]

/-- The final ACK P3 accepts, for a SYN-ACK of `seq 0x900`: `seq 0x101`, `ack 0x901`. -/
def ackBytes : List Byte := bytes [0x1B, 0x58, 0x1B, 0x58, 0, 0, 1, 1, 0, 0, 9, 1, 0x50, 0x10, 3, 0xE8, 0, 0, 0, 0]

/-- A segment of 12 bytes: malformed (40_codec.md R164). -/
def shortBytes : List Byte := bytes [0x1B, 0x58, 0x1B, 0x58, 0, 0, 9, 0, 0, 0, 0, 0]

def synackSeg : Segment :=
  { Segment.zero with
    srcPort := 7000, dstPort := 7000, seq := 0x900, ack := 0x101, doff := 5, flags := 0x12, window := 1000
    checksum := 0xAAAA }

def synSeg : Segment :=
  { Segment.zero with
    srcPort := 7000, dstPort := 7000, seq := 0x100, doff := 5, flags := 0x02, window := 1000, checksum := 0x1111 }

def ackSeg : Segment :=
  { Segment.zero with
    srcPort := 7000, dstPort := 7000, seq := 0x101, ack := 0x901, doff := 5, flags := 0x10, window := 1000 }

/-- A command is running: CONNECT in its receive phase with one discard left. -/
def receiving : State := { ready with phase := .aSynackRecvIssue, isnReg := 0x100, retryLeft := 1, cmd := 0x4 }

/-- `receiving` after its issue step, with the response `r` delivered. -/
def received (r : Response) : State :=
  { receiving with phase := .aSynackRecvWait, outreq := some (.recv 1 60), response := some r }

/-- LISTEN in its first receive phase. -/
def listening : State := { ready with phase := .pSynRecvIssue, connState := .listen, retryLeft := 1, cmd := 0x5 }

/-- LISTEN in its second receive phase, after a SYN of sequence number 0x100 and with its own number 0x900. -/
def acknowledging : State :=
  { ready with
    phase := .pAckRecvIssue, connState := .synReceived, retryLeft := 1, cmd := 0x5, isnReg := 0x900, peerIsn := 0x100 }

/-- CONNECT after its GO step. -/
def connecting : State := out (exec (.connect false) ready)

/-- CONNECT with the checksum of its SYN answered. -/
def checksummed : State := { connecting with response := some (.csum 0x1111) }

/-- CONNECT with its SYN in the send port. -/
def sending : State := blockStep checksummed

/-- Parameters that are not TCPHS-1's (00_scope.md R9). -/
def otherParams : Params where
  defaultWindow := 512
  protoNum := 253
  addrBits := 40
  sessionBits := 8
  rxCapacity := ⟨64, by decide⟩
  activePortCheck := .argDst

/-! ## Decoding, from words written out bit by bit -/

theorem test_decode_codec :
    decode ctrlAddr 0b0_0000000000000000000000000_0_1_0001#32 = .ok (.encode false) ∧
    decode ctrlAddr 0b0_0000000000000000000000000_1_1_0010#32 = .ok (.decode true) ∧
    decode ctrlAddr 0b0_0000000000000000000000000_0_1_0011#32 = .ok (.csum false) := by decide

theorem test_decode_handshake :
    decode ctrlAddr 0b0_0000000000000000000000000_0_1_0100#32 = .ok (.connect false) ∧
    decode ctrlAddr 0b0_0000000000000000000000001_1_1_0101#32 = .ok (.listen true) := by decide

theorem test_decode_extension :
    decode ctrlAddr 0b0_0000000000000000000000000_0_1_1000#32 = .ok (.send false) ∧
    decode ctrlAddr 0b0_0000000000000000000000000_1_1_1001#32 = .ok (.receive true) ∧
    decode ctrlAddr 0b0_1000000000000000000000000_0_1_1010#32 = .ok (.close false) := by decide

theorem test_decode_codes_without_a_command :
    decode ctrlAddr 0b0_0000000000000000000000000_0_1_0000#32 = .ok (.illegal0 false) ∧
    decode ctrlAddr 0b0_0000000000000000000000000_0_1_0110#32 = .ok (.illegal6 false) ∧
    decode ctrlAddr 0b0_0000000000000000000000000_1_1_0111#32 = .ok (.illegal7 true) ∧
    decode ctrlAddr 0b0_0000000000000000000000000_0_1_1011#32 = .ok (.illegalB false) ∧
    decode ctrlAddr 0b0_0000000000000000000000000_1_1_1100#32 = .ok (.illegalC true) ∧
    decode ctrlAddr 0b0_0000000000000000000000000_0_1_1101#32 = .ok (.illegalD false) ∧
    decode ctrlAddr 0b0_0000000000000000000000000_1_1_1110#32 = .ok (.illegalE true) ∧
    decode ctrlAddr 0b0_0000000000000000000000000_0_1_1111#32 = .ok (.illegalF false) := by decide

/-- V-X13: `SRST` wins over `GO`. -/
theorem test_decode_control :
    decode ctrlAddr 0b1_0000000000000000000000000_0_0_0000#32 = .ok .srst ∧
    decode ctrlAddr 0b1_0000000000000000000000000_0_1_1111#32 = .ok .srst ∧
    decode ctrlAddr 0b0_0000000000000000000000000_1_0_0100#32 = .ok (.ctrlSet 0x4 true) := by decide

theorem test_decode_refuses_other_registers : decode 2 0x11 = .error (.notCtrl 2) := by decide

theorem test_table_word_too_wide : decodeTableWord 32 (2 ^ 32 + 0x11) = none ∧ decodeTableWord 33 0x11 = none := by
  decide

theorem test_encode_word : encode (.connect true) = [0x00000034] ∧ encode .srst = [0x80000000] := by decide

/-! ## Well-formedness: an ill-formed term for each check, which the check refuses -/

theorem test_wf_refuses_short_header : Segment.wf { synE3 with doff := 4 } = false ∧ synE3.wf = true := by decide

theorem test_wf_refuses_bytes_past_the_header :
    Segment.trimmed { synE3 with opt := synE3.opt.set 0 1 } = false ∧ synE3.trimmed = true := by decide

theorem test_wf_refuses_offsets :
    offsetOk 0x005 = false ∧ offsetOk 0x400 = false ∧ offsetOk 0x3FC = true := by decide

theorem test_wf_refuses_lines :
    Line.wf .tcphs1 (.wr 0x005 0) = false ∧ Line.wf .tcphs1 (.rd 0x400) = false ∧
    Line.wf .tcphs1 (.env (.recv 12 synBytes 0)) = false ∧ Line.wf .tcphs1 (.env (.recv 20 synBytes 0)) = true := by decide

/-- Every term of `Instr` is well-formed: the check has nothing to refuse. -/
theorem test_wf_instr : Instr.wf (.ctrlSet 0xF true) = true ∧ Instr.wf .srst = true := by decide

/-! ## Codec -/

/-- V-E2, V-E4, V-E5. -/
theorem test_encode_fn :
    encodeFn { synE3 with rsvd := 5, ns := 1, flags := 0x12 } =
      bytes [0x1B, 0x58, 0x1B, 0x58, 0x12, 0x34, 0x56, 0x78, 0, 0, 0, 0, 0x5B, 0x12, 3, 0xE8, 0, 0, 0, 0] ∧
    encodeFn { optE4 with opt := Vector.ofFn fun i => (bytes [0x02, 0x04, 0x05, 0xB4]).getD i.val 0x99 } =
      bytes [0, 1, 0, 2, 0, 0, 0, 3, 0, 0, 0, 4, 0x60, 0x10, 0, 5, 0, 6, 0, 7, 2, 4, 5, 0xB4] := by decide

/-- V-D1 to V-D5, V-D7. -/
theorem test_decode_fn :
    decodeFn (b0.take 19) = none ∧ decodeFn (b0.set 12 0x40) = none ∧ decodeFn (b0.set 12 0x60) = none ∧
    decodeFn b0 = some
      { Segment.zero with
        srcPort := 7000, dstPort := 80, seq := 0xDEADBEEF, ack := 0x01020304, doff := 5, flags := 0x18
        window := 0x1234, checksum := 0xABCD, urgent := 1 } ∧
    decodeFn (b0 ++ bytes [9, 9, 9, 9]) = decodeFn b0 := by decide

/-- V-C1. -/
theorem test_encode :
    let t := out (exec (.encode false) { State.reset with txseg := synE3 })
    t.statusWord = 0x00000002 ∧ t.txlen = 20 ∧ readReg (.txbuf 0) t = 0x1B581B58 ∧
      readReg (.txbuf 1) t = 0x12345678 ∧ readReg (.txbuf 3) t = 0x500203E8 := by decide

/-- V-C2. -/
theorem test_encode_bad_length :
    let t := out (exec (.encode true) { State.reset with txseg := setView Segment.zero 3 0x400203E8 })
    t.statusWord = 0x00000082 ∧ t.txlen = 0 ∧ t.txbuf = [] ∧ t.irq = true := by decide

/-- V-C5. -/
theorem test_decode :
    let t := out (exec (.decode false)
      { State.reset with
        rxlen := 20
        rxbuf := Memory.writeBytes [] 0 (bytes [0x1B, 0x58, 0x1B, 0x58, 0, 0, 0, 0, 0x12, 0x34, 0x56, 0x79, 0x50,
          0x12, 3, 0xE8, 0xAB, 0xCD, 0, 0]) })
    t.statusWord = 0x00000002 ∧ t.rxseg =
      { Segment.zero with
        srcPort := 7000, dstPort := 7000, ack := 0x12345679, doff := 5, flags := 0x12, window := 1000
        checksum := 0xABCD } := by decide

/-- V-C6. -/
theorem test_decode_malformed :
    let t := out (exec (.decode false)
      { State.reset with rxlen := 19, rxseg := synE3, rxbuf := Memory.writeBytes [] 0 (bytes [0, 0, 0, 0]) })
    t.statusWord = 0x00010042 ∧ t.rxseg = synE3 := by decide

/-- V-C9. -/
theorem test_csum :
    let t := out (exec (.csum false)
      { ready with argSession := 5, txseg := { synE3 with checksum := 0x1111 } })
    t.statusWord = 0x00000001 ∧ t.phaseWord = 1 ∧ viewWord t.txseg 4 = 0 ∧
      t.outreq = some (.csum 5 0x20010DB8000000000000000000000001 6
        (bytes [0x1B, 0x58, 0x1B, 0x58, 0x12, 0x34, 0x56, 0x78, 0, 0, 0, 0, 0x50, 2, 3, 0xE8, 0, 0, 0, 0])) := by
  decide

/-- V-C12. -/
theorem test_csum_bad_length :
    let t := out (exec (.csum false) { State.reset with txseg := setView Segment.zero 3 0x400203E8 })
    t.statusWord = 0x00000082 ∧ t.phase = .idle ∧ t.outreq = none := by decide

/-! ## Handshakes -/

/-- P2, its GO line. -/
theorem test_connect :
    connecting.statusWord = 0x00000001 ∧ connecting.phaseWord = 2 ∧ connecting.connStatusWord = 0 ∧
      connecting.outreq = some (.csum 1 0x20010DB8000000000000000000000001 6
        (bytes [0x1B, 0x58, 0x1B, 0x58, 0, 0, 1, 0, 0, 0, 0, 0, 0x50, 2, 3, 0xE8, 0, 0, 0, 0])) := by decide

/-- P2: the accepted SYN-ACK. V-A9 and V-A7: only `SYN` and `ACK` are tested, and both ports are. -/
theorem test_connect_match :
    let t := blockStep (received (.recv 20 synackBytes 5))
    t.phaseWord = 6 ∧ t.peerIsn = 0x900 ∧ t.peerPort = 7000 ∧
      t.outreq = some (.csum 1 0x20010DB8000000000000000000000001 6
        (bytes [0x1B, 0x58, 0x1B, 0x58, 0, 0, 1, 1, 0, 0, 9, 1, 0x50, 0x10, 3, 0xE8, 0, 0, 0, 0])) ∧
      matchSynack { synackSeg with flags := 0x16 } receiving = true ∧
      matchSynack { synackSeg with dstPort := 7001 } receiving = false := by decide

/-- V-B8: the GO step of LISTEN completes, and the next step of the block fails. -/
theorem test_listen :
    let t := out (exec (.listen false) { ready with deadline := true })
    t.phaseWord = 8 ∧ t.connStatusWord = 1 ∧ (blockStep t).statusWord = 0x00000132 := by decide

/-- V-P9, V-P13 and V-P17. -/
theorem test_listen_match :
    matchAck ackSeg acknowledging = true ∧ matchAck synSeg acknowledging = false ∧
      matchAck { ackSeg with srcPort := 1234 } acknowledging = true ∧
      matchSyn { synSeg with dstPort := 7001 } listening = false := by decide

/-! ## Extension commands, codes without a command, control actions -/

/-- V-X2. -/
theorem test_send :
    let t := out (exec (.send true) State.reset)
    t.statusWord = 0x00000072 ∧ t.ctrlWord = 0x00000028 ∧ t.irq = true := by decide

/-- V-X3. -/
theorem test_receive : (out (exec (.receive false) State.reset)).statusWord = 0x00000072 := by decide

/-- V-X4. -/
theorem test_close :
    let t := out (exec (.close false) { State.reset with connState := .established, connValid := true })
    t.statusWord = 0x00000072 ∧ t.connStatusWord = 0x104 := by decide

/-- V-X5, V-X6. -/
theorem test_codes_without_a_command :
    ([.illegal0 false, .illegal6 false, .illegal7 false, .illegalB false, .illegalC false, .illegalD false,
      .illegalE false, .illegalF false] : List Instr).all
      (fun i => (out (exec i State.reset)).statusWord == 0x00000062) = true := by decide

/-- V-X8: a command while busy. -/
theorem test_command_while_busy :
    let t := out (takeWrite ctrlAddr 0x11 connecting)
    t.statusWord = 0x00020001 ∧ t.ctrlWord = 4 ∧ t.txseg = connecting.txseg := by decide

/-- V-X12. -/
theorem test_srst :
    let t := out (exec .srst connecting)
    t.ctrlWord = 0 ∧ t.statusWord = 0 ∧ t.phaseWord = 0 ∧ t.argPort = 0 ∧ t.txbuf = [] := by decide

/-- V-X10 and V-X17. -/
theorem test_ctrl_set :
    readReg .ctrl (out (exec (.ctrlSet 0 true) connecting)) = 0x00000024 ∧
      (out (exec (.ctrlSet 0 true) { State.reset with done := true })).irq = true := by decide

/-! ## The host port -/

/-- V-X7, V-X9, V-X14, V-C8. -/
theorem test_host_writes :
    (out (takeWrite 2 0x2 { State.reset with done := true, err := .badCommand })).statusWord = 0x00000060 ∧
      (out (takeWrite 6 1234 connecting)).argPort = 7000 ∧
      readAddr 6 (out (takeWrite 6 0x12345678 State.reset)) = 0x00005678 ∧
      readAddr 65 (out (takeWrite 65 0xFFFF State.reset)) = 0x0000003C := by decide

/-- V-X15, V-X16. -/
theorem test_host_reads :
    readAddr 0 State.reset = 0x54435031 ∧ readAddr 13 State.reset = 0 ∧ readAddr 255 State.reset = 0 := by decide

/-- 00_scope.md R9: a block with other parameters has a word 15 of `RXBUF` and no word 16, clamps `RXLEN` to 64, and
keeps 8 bits of a session and 40 of an address. -/
theorem test_other_parameters :
    let s := State.resetOf otherParams
    readAddr 207 (out (takeWrite 207 0xAABBCCDD s)) = 0xAABBCCDD ∧ out (takeWrite 208 0xAABBCCDD s) = s ∧
      readAddr 65 (out (takeWrite 65 0xFFFF s)) = 64 ∧ readAddr 5 (out (takeWrite 5 0x12345678 s)) = 0x78 ∧
      readAddr 11 (out (takeWrite 11 0x12345678 s)) = 0x78 ∧
      readAddr 12 (out (takeWrite 12 0x12345678 s)) = 0x12345678 := by decide

/-- 00_scope.md R9, 41_handshake_active.md R208: a SYN carries the block's own window, the checksum request its own
protocol number, and the port test is its own. -/
theorem test_other_parameters_in_connect :
    let t := out (exec (.connect false) { State.resetOf otherParams with nextIsn := some 0x100, argPort := 7000 })
    t.txseg.window = 512 ∧ matchSynack { synackSeg with srcPort := 1 } t = true ∧
      t.outreq = some (.csum 0 0 253
        (bytes [0, 0, 0x1B, 0x58, 0, 0, 1, 0, 0, 0, 0, 0, 0x50, 2, 2, 0, 0, 0, 0, 0])) := by decide

/-- 30_encoding.md R146: in `go CSUM; wait; clr; env csum -> 0xBEEF` the loop reads `STATUS` until the answer is consumed,
and only then is `DONE` cleared. -/
theorem test_wait_is_a_loop :
    pollAgain [.write 2 0x2, .respond (.csum 0xBEEF), .block, .block] =
        [.respond (.csum 0xBEEF), .wait, .write 2 0x2, .block, .block] ∧
      pollAgain [.write 2 0x2] = [.block, .wait, .write 2 0x2] ∧
      (pollDone { ready with done := true, schedule := [.write 2 0x2] }).schedule = [.write 2 0x2] := by decide

/-- 30_encoding.md R145: a draw settled for the step of a segment that is dropped is not drawn by a later one, and the
last one settled for a step is its draw. -/
theorem test_draw_is_of_the_next_step :
    let s := receiveAttemptDrawing (some 1) (.recv 12 shortBytes 6) listening
    s.phase = .pSynRecvIssue ∧ s.nextIsn = none ∧ (supplyIsn 2 (supplyIsn 1 s)).nextIsn = some 2 ∧
      (receiveAttemptDrawing (some 2) (.recv 20 synBytes 6) s).isnReg = 2 := by decide

/-- 30_encoding.md R145, 20_memory.md R82: a host access and a refused command are not the block's next step. -/
theorem test_draw_outlives_host_accesses :
    (out (takeWrite ctrlAddr 0x15 receiving)).nextIsn = some 0x100 ∧
      (out (takeTurn (.read 2) receiving)).nextIsn = some 0x100 ∧ (blockStep (received (.send 20))).nextIsn = some 0x100 ∧
      (out (exec (.listen false) ready)).nextIsn = none := by decide

/-- An instruction runs as the first step after reset. -/
theorem test_first_step : (out (step (State.reset.withFetchWord 32 0x18))).statusWord = 0x00000072 := by decide

/-! ## Witnesses: values that meet an obligation's hypotheses -/

theorem witness_DecodeOfEncodeIsTheInstruction : (Instr.csum true).wf = true ∧ (Instr.ctrlSet 0xF false).wf = true := by
  decide

theorem witness_EncodedHeaderHasTheWireLayout :
    5 ≤ synE3.doff.toNat ∧ 5 ≤ optE4.doff.toNat ∧ 3 < 4 * (optE4.doff.toNat - 5) := by decide

theorem witness_SegmentDecodeAndEncodeAgree :
    (5 ≤ synE3.doff.toNat ∧ ∀ i : Fin 40, 4 * (synE3.doff.toNat - 5) ≤ i.val → synE3.opt[i] = 0) ∧
    (5 ≤ optE4.doff.toNat ∧ ∀ i : Fin 40, 4 * (optE4.doff.toNat - 5) ≤ i.val → optE4.opt[i] = 0) ∧
    decodeFn (encodeFn optE4) = some optE4 := by decide

theorem witness_MalformedBuffersAreTheShortAndTheIllFormed :
    (b0.take 19).length < 20 ∧
    (20 ≤ (b0.set 12 0x40).length ∧ ((byteAt (b0.set 12 0x40) 12).extractLsb' 4 4).toNat ≤ 4) ∧
    (6 ≤ ((byteAt (b0.set 12 0x60) 12).extractLsb' 4 4).toNat ∧
      (b0.set 12 0x60).length < 4 * ((byteAt (b0.set 12 0x60) 12).extractLsb' 4 4).toNat) ∧
    (5 ≤ ((byteAt b0 12).extractLsb' 4 4).toNat ∧ 4 * ((byteAt b0 12).extractLsb' 4 4).toNat ≤ b0.length) := by decide

/-- `TXBUF` word 0 and `RXBUF` word 14, the last below the capacity, all four bytes written. -/
theorem witness_ReadsReturnTheRegisterLayouts :
    Memory.read connecting.txbuf 0 = some 0x1B ∧ Memory.read connecting.txbuf 1 = some 0x58 ∧
    Memory.read connecting.txbuf 2 = some 0x1B ∧ Memory.read connecting.txbuf 3 = some 0x58 ∧
    4 * (14 : Fin 64).val + 4 ≤ ready.params.rxBufBytes ∧
    (let t := out (takeWrite 206 0xAABBCCDD ready)
    Memory.read t.rxbuf 56 = some 0xAA ∧ Memory.read t.rxbuf 57 = some 0xBB ∧ Memory.read t.rxbuf 58 = some 0xCC ∧
      Memory.read t.rxbuf 59 = some 0xDD) := by decide

/-- A read, and a poll that reads `DONE` as 1, and as 0 with and without a turn of another agent behind it. -/
theorem witness_ReadsHaveNoSideEffect :
    { ready with schedule := [.read 3] }.schedule = .read 3 :: [] ∧
    (let s := { ready with done := true, schedule := [.wait, .read 3] }
    s.schedule = .wait :: [.read 3] ∧ s.done = true) ∧
    (let s := { connecting with schedule := [.wait, .read 3, .respond (.csum 1)] }
    s.schedule = .wait :: [.read 3, .respond (.csum 1)] ∧ s.done = false) ∧
    (let s := { connecting with schedule := [.wait, .read 3] }
    s.schedule = .wait :: [.read 3] ∧ s.done = false) := by decide

/-- The first and the last word of a header of 20 and of 24 bytes. -/
theorem witness_SegmentViewsAreTheEncodedWords :
    5 ≤ synE3.doff.toNat ∧ (4 : Fin 15).val < synE3.doff.toNat ∧ (5 : Fin 15).val < optE4.doff.toNat ∧
      (3 : Fin 15) ≠ 4 := by decide

/-- The ends of each range of idle-only registers, while busy; and an idle state. -/
theorem witness_IdleOnlyRegistersAreWrittenOnlyWhileIdle :
    connecting.phase ≠ .idle ∧ ready.phase = .idle ∧
    ([5, 12, 32, 46, 65, 192, 206] : List (BitVec 8)).all
      (fun a => decide (5 ≤ a.toNat ∧ a.toNat ≤ 12 ∨ 32 ≤ a.toNat ∧ a.toNat ≤ 46 ∨ a.toNat = 65 ∨
        192 ≤ a.toNat ∧ 4 * a.toNat < 0x300 + connecting.params.rxBufBytes)) = true ∧
    4 * (14 : Fin 64).val + 4 ≤ ready.params.rxBufBytes := by decide

/-- The neighbours of the writable registers (word 207 is the first past `RXBUF` in TCPHS-1), and an unmapped offset,
0x034. -/
theorem witness_OtherOffsetsIgnoreWrites :
    ([0, 3, 4, 13, 31, 47, 64, 66, 128, 191, 207, 255] : List (BitVec 8)).all
      (fun a => !decide (a.toNat = 1 ∨ a.toNat = 2 ∨ 5 ≤ a.toNat ∧ a.toNat ≤ 12 ∨ 32 ≤ a.toNat ∧ a.toNat ≤ 46 ∨
        a.toNat = 65 ∨ 192 ≤ a.toNat ∧ 4 * a.toNat < 0x300 + ready.params.rxBufBytes)) = true ∧
    ∀ r : Reg, r.mapped ready.params = true → r.offset ≠ 4 * (13 : BitVec 8).toNat := by
  refine ⟨by decide, fun r _ => ?_⟩
  have h13 : (13 : BitVec 8).toNat = 13 := by decide
  cases r <;> simp only [Reg.offset, h13] <;> omega

theorem witness_ResetDropsTheOutstandingRequest :
    exec .srst connecting = .next (resetBlock connecting) ∧
      takeTurn .hardReset connecting = .next (resetBlock connecting) := ⟨rfl, rfl⟩

theorem witness_ControlWriteSetsIeAndCmd : ready.phase = .idle ∧ connecting.phase ≠ .idle := by decide

theorem witness_CommandWhileBusyIsRefused :
    Instr.illegalF true ∈ [Instr.encode true, .decode true, .csum true, .connect true, .listen true, .send true,
      .receive true, .close true, .illegal0 true, .illegal6 true, .illegal7 true, .illegalB true, .illegalC true,
      .illegalD true, .illegalE true, .illegalF true] ∧ connecting.phase ≠ .idle := by decide

theorem witness_StepRunsTheDecodedInstruction :
    { ready with schedule := [.write ctrlAddr 0x14] }.schedule = .write ctrlAddr 0x14 :: [] ∧
    decode ctrlAddr 0x14 = .ok (.connect false) ∧ (Instr.connect false).wf = true ∧
    decodeTableWord 32 0x80000000 = some .srst := by decide

/-- Header lengths 4 and 5. -/
theorem witness_EncodeWritesTheEncoding :
    ({ ready with txseg := { synE3 with doff := 4 } }.phase = .idle ∧ ({ synE3 with doff := 4 } : Segment).doff.toNat < 5) ∧
    ({ ready with txseg := synE3 }.phase = .idle ∧ 5 ≤ synE3.doff.toNat) := by decide

/-- Both results of a decode are met: 19 and 20 valid bytes. -/
theorem witness_DecodeLoadsTheReceivedSegment :
    ready.phase = .idle ∧ decodeFn (b0.take 19) = none ∧ (decodeFn b0).isSome = true ∧
    (let s := { ready with rxlen := 20, rxbuf := Memory.writeBytes [] 0 b0 }
    19 < s.rxlen.toNat ∧ Memory.read s.rxbuf 19 = some 0x01) := by decide

theorem witness_CsumAsksForTheChecksum :
    ({ ready with txseg := { synE3 with doff := 4 } }.phase = .idle ∧ ({ synE3 with doff := 4 } : Segment).doff.toNat < 5) ∧
    ({ ready with txseg := synE3 }.phase = .idle ∧ 5 ≤ synE3.doff.toNat) := by decide

theorem enc_connecting : connecting.TxEncoded := ⟨by decide, by decide, by decide⟩

theorem witness_CsumInsertsTheChecksum :
    let s := { out (exec (.csum false) { ready with txseg := synE3 }) with response := some (.csum 0xBEEF) }
    s.phase = .cCsumWait ∧ s.response = some (.csum 0xBEEF) ∧ s.TxEncoded :=
  ⟨by decide, by decide, by decide, by decide, by decide⟩

theorem witness_DrawsMatterOnlyForUnwrittenBytes :
    (let s := { ready with rxlen := 20, rxbuf := Memory.writeBytes [] 0 b0 }
    (∀ o, o < s.rxlen.toNat → ∃ v, Memory.read s.rxbuf o = some v) ∧
      ∀ o, 4 * (4 : Fin 64).val ≤ o → o < 4 * (4 : Fin 64).val + 4 → ∃ v, Memory.read s.rxbuf o = some v) ∧
    (∀ o, 4 * (4 : Fin 15).val ≤ o → o < 4 * (4 : Fin 15).val + 4 → ∃ v, Memory.read connecting.txbuf o = some v) ∧
    (∀ k, Reg.rxlen ≠ .txbuf k) ∧ ∀ k, Reg.rxlen ≠ .rxbuf k := by
  have h (m : Memory) (n : Nat) (hm : ∀ o, o < n → (Memory.read m o).isSome = true) :
      ∀ o, o < n → ∃ v, Memory.read m o = some v := fun o ho => Option.isSome_iff_exists.1 (hm o ho)
  exact ⟨⟨h _ _ (by decide), fun o _ ho => h _ 20 (by decide) o ho⟩, fun o _ ho => h _ 20 (by decide) o ho, by simp,
    by simp⟩

theorem witness_ExtensionCommandsEndNotImplemented :
    (Instr.close true, 0xA#4) ∈ [(Instr.send true, 0x8#4), (.receive true, 0x9#4), (.close true, 0xA#4)] ∧
      ready.phase = .idle := by decide

theorem witness_CodesWithoutACommandEndBadCommand :
    (Instr.illegalF false, 0xF#4) ∈ [(Instr.illegal0 false, 0x0#4), (.illegal6 false, 0x6#4), (.illegal7 false, 0x7#4),
      (.illegalB false, 0xB#4), (.illegalC false, 0xC#4), (.illegalD false, 0xD#4), (.illegalE false, 0xE#4),
      (.illegalF false, 0xF#4)] ∧ ready.phase = .idle := by decide

theorem witness_CommandsThatStoreNothingLeaveTheBuffers :
    Instr.listen true ∈ [Instr.decode true, .listen true, .send true, .receive true, .close true, .illegal0 true,
      .illegal6 true, .illegal7 true, .illegalB true, .illegalC true, .illegalD true, .illegalE true,
      .illegalF true] ∧
    exec (.listen true) ready = .next (out (exec (.listen true) ready)) ∧
    exec (.ctrlSet 3 true) ready = .next (out (exec (.ctrlSet 3 true) ready)) ∧
    exec (.listen true) receiving = .next (out (exec (.listen true) receiving)) ∧ receiving.phase ≠ .idle ∧
    Instr.listen true ≠ .decode true ∧ Instr.decode true ≠ .listen true :=
  ⟨by decide, rfl, rfl, rfl, by decide, by decide, by decide⟩

/-- A store, a command that stores nothing because it is busy, and one whose `doff` is 0. -/
theorem witness_CommandsThatStoreTouchOnlyTheHeaderBytes :
    Instr.csum true ∈ [Instr.encode true, .csum true, .connect true] ∧
    exec (.csum true) ready = .next (out (exec (.csum true) ready)) ∧
    exec (.connect true) connecting = .next (out (exec (.connect true) connecting)) ∧
    headerLen (out (exec (.connect true) connecting)).txseg ≤ 20 ∧ connecting.phase ≠ .idle ∧
    (Instr.csum true ≠ .connect true ∧ ready.txseg.doff.toNat < 5) :=
  ⟨by decide, rfl, rfl, by decide, by decide, by decide, by decide⟩

theorem witness_ConnectBuildsTheSyn : ready.phase = .idle ∧ ready.nextIsn = some 0x100 := ⟨rfl, rfl⟩

/-- The three phases. -/
theorem witness_HandshakeChecksumStepsSendTheSegment :
    checksummed.TxEncoded ∧ checksummed.response = some (.csum 0x1111) ∧ checksummed.phase = .aSynCsumWait ∧
    { checksummed with phase := .aAckCsumWait }.TxEncoded ∧ { checksummed with phase := .pSynackCsumWait }.TxEncoded :=
  ⟨enc_connecting, rfl, by decide, enc_connecting, enc_connecting⟩

/-- The counts 0 and -1. -/
theorem witness_FailedSendAbortsTheHandshake :
    sending.phase ∈ [Phase.aSynSendWait, .aAckSendWait, .pSynackSendWait] ∧
    { sending with response := some (.send 0) }.response = some (.send 0) ∧ (0 : Word).toInt ≤ 0 ∧
    (0xFFFFFFFF : Word).toInt ≤ 0 := by decide

/-- The count 1. -/
theorem witness_SuccessfulSendStartsTheReceivePhase :
    { sending with response := some (.send 1) }.response = some (.send 1) ∧ 0 < (1 : Word).toInt ∧
    sending.phase = .aSynSendWait ∧ { sending with phase := .pSynackSendWait }.phase = .pSynackSendWait := by decide

theorem rp_receiving : receiving.ReceivePhase .aSynackRecvIssue .aSynackRecvWait (SynackFor .both 7000 7000 0x100) :=
  Or.inl ⟨rfl, rfl, rfl⟩

theorem rp_listening : listening.ReceivePhase .pSynRecvIssue .pSynRecvWait (SynFor 7000) :=
  Or.inr (Or.inl ⟨rfl, rfl, rfl⟩)

theorem rp_acknowledging : acknowledging.ReceivePhase .pAckRecvIssue .pAckRecvWait (AckFor 7000 0x900 0x100) :=
  Or.inr (Or.inr ⟨rfl, rfl, rfl⟩)

theorem witness_IssueStepsCheckTheDeadlineFirst :
    receiving.phase = .aSynackRecvIssue ∧ receiving.deadline = false ∧
    { receiving with deadline := true }.deadline = true ∧ listening.phase = .pSynRecvIssue ∧
    acknowledging.phase = .pAckRecvIssue := by decide

theorem witness_FailedReceiveAbortsTheHandshake :
    (received (.recv 0 [] 0)).ReceivePhase .aSynackRecvIssue .aSynackRecvWait (SynackFor .both 7000 7000 0x100) ∧
    (received (.recv 0 [] 0)).phase = .aSynackRecvWait ∧
    (received (.recv 0 [] 0)).response = some (.recv 0 [] 0) ∧ (0 : Word).toInt ≤ 0 :=
  ⟨rp_receiving, rfl, rfl, by decide⟩

theorem received_short : Received .tcphs1 12 shortBytes := by unfold Received; decide
theorem received_synack : Received .tcphs1 20 synackBytes := by unfold Received; decide
theorem received_syn : Received .tcphs1 20 synBytes := by unfold Received; decide
theorem received_ack : Received .tcphs1 20 ackBytes := by unfold Received; decide

/-- A count past the capacity (V-F9). -/
theorem received_long : Received .tcphs1 100 (List.replicate 60 0) := by unfold Received; decide

theorem dropped_short (accepts : Segment → Prop) : Dropped accepts shortBytes := by
  intro d h
  rw [show decodeFn shortBytes = none by decide] at h
  cases h

/-- A SYN is no SYN-ACK. -/
theorem dropped_syn : Dropped (SynackFor .both 7000 7000 0x100) synBytes := by
  intro d h hd
  rw [show decodeFn synBytes = some synSeg by decide] at h
  cases h
  exact absurd hd.2.1 (by decide)

/-- One discard left, and none. -/
theorem witness_DroppedSegmentsCountAgainstTheBudget :
    (received (.recv 20 synBytes 0)).ReceivePhase .aSynackRecvIssue .aSynackRecvWait (SynackFor .both 7000 7000 0x100) ∧
    (received (.recv 20 synBytes 0)).phase = .aSynackRecvWait ∧ Received .tcphs1 20 synBytes ∧
    Dropped (SynackFor .both 7000 7000 0x100) synBytes ∧ Received .tcphs1 12 shortBytes ∧
    Dropped (SynackFor .both 7000 7000 0x100) shortBytes ∧ (received (.recv 20 synBytes 0)).retryLeft ≠ 0 ∧
    { received (.recv 20 synBytes 0) with retryLeft := 0 }.retryLeft = 0 :=
  ⟨rp_receiving, rfl, received_syn, dropped_syn, received_short, dropped_short _, by decide, rfl⟩

theorem witness_AcceptedSynackBuildsTheAck :
    (received (.recv 20 synackBytes 5)).phase = .aSynackRecvWait ∧
    (received (.recv 20 synackBytes 5)).response = some (.recv 20 synackBytes 5) ∧ Received .tcphs1 20 synackBytes ∧
    decodeFn synackBytes = some synackSeg ∧ SynackFor .both 7000 7000 0x100 synackSeg :=
  ⟨rfl, rfl, received_synack, by decide, by unfold SynackFor PortsFor; decide⟩

theorem witness_SentAckCompletesConnect :
    let s := { receiving with phase := .aAckSendWait, response := some (.send 20) }
    s.phase = .aAckSendWait ∧ s.response = some (.send 20) ∧ 0 < (20 : Word).toInt := by decide

theorem witness_ListenStartsTheReceivePhase : ready.phase = .idle := rfl

theorem witness_AcceptedSynBuildsTheSynack :
    let s := { listening with phase := .pSynRecvWait, response := some (.recv 20 synBytes 6) }
    s.phase = .pSynRecvWait ∧ s.response = some (.recv 20 synBytes 6) ∧ Received .tcphs1 20 synBytes ∧
    decodeFn synBytes = some synSeg ∧ SynFor s.argPort synSeg :=
  ⟨rfl, rfl, received_syn, by decide, by unfold SynFor; decide⟩

theorem witness_AcceptedAckAsksForTheSession :
    let s := { acknowledging with phase := .pAckRecvWait, response := some (.recv 20 ackBytes 6) }
    s.phase = .pAckRecvWait ∧ s.response = some (.recv 20 ackBytes 6) ∧ Received .tcphs1 20 ackBytes ∧
    decodeFn ackBytes = some ackSeg ∧ AckFor s.argPort s.isnReg s.peerIsn ackSeg :=
  ⟨rfl, rfl, received_ack, by decide, by unfold AckFor; decide⟩

theorem witness_SessionAnswerEndsListen :
    { acknowledging with phase := .pSessWait, response := some (.sess true 9) }.phase = .pSessWait ∧
    { acknowledging with phase := .pSessWait, response := some (.sess false 9) }.response = some (.sess false 9) := by
  decide

/-- An idle block, a block with a response it has had, a block with a request of another port. -/
theorem witness_ResponsesAnswerTheOutstandingRequest :
    ready.outreq = none ∧ checksummed.response ≠ none ∧
    connecting.outreq.map Request.port = some (Response.csum 1).port ∧
    connecting.outreq.map Request.port ≠ some (Response.send 1).port ∧ connecting.response = none ∧
    (Response.csum 1).shapeOk connecting.params = true := by decide

/-- An idle block, and one whose request is not answered. -/
theorem witness_WaitingBlockChangesNothing :
    ready.schedule = [] ∧ ready.phase = .idle ∧ connecting.schedule = [] ∧ connecting.phase.waitsOn = some .csum ∧
    ∀ r, connecting.response = some r → r.port ≠ .csum := by
  refine ⟨rfl, rfl, by decide, by decide, fun r h => ?_⟩
  rw [show connecting.response = none by decide] at h
  cases h

/-! A running handshake in the invariant. -/

theorem inv_checksummed : checksummed.Inv := by
  refine ⟨⟨by decide, fun r h => ?_⟩, ⟨by decide, by decide, by decide, by decide, by decide, by decide, by decide⟩,
    ⟨fun c h => ?_, fun h => absurd (by decide) h⟩, ?_, ?_, ?_, fun S h => ?_,
    ⟨by decide, by decide, by decide, by decide, fun r h => ?_⟩⟩
  · cases h
    decide
  · rw [show checksummed.phase = .aSynCsumWait by decide] at h
    cases h
    decide
  · exact ⟨by decide, by decide⟩
  · exact (by decide : checksummed.discards = 0)
  · exact ⟨enc_connecting, by decide, by decide⟩
  · cases h
    decide
  · cases h
    decide

theorem witness_EveryStepKeepsInv : checksummed.Inv ∧ step checksummed = .next (out (step checksummed)) :=
  ⟨inv_checksummed, rfl⟩

/-- A GO write, a step of the block that ends a command, and a reset. -/
theorem witness_PhaseChangesAreArcs :
    ((out (step (ready.withFetchWord 32 0x15))).phase ≠ ready.phase ∧
      nextTurn (ready.withFetchWord 32 0x15) = .write ctrlAddr 0x15) ∧
    ((out (step { sending with response := some (.send 0) })).phase = .idle ∧
      nextTurn { sending with response := some (.send 0) } = .block) ∧
    ((out (step (connecting.withFetchWord 32 0x80000000))).phase ≠ connecting.phase ∧
      (nextTurn (connecting.withFetchWord 32 0x80000000)).resets = true) := by decide

/-- The completion of CONNECT, and a reset. -/
theorem witness_ConnectionChangesOnlyAtCompletionOrReset :
    (let s := { receiving with phase := .aAckSendWait, response := some (.send 20) }
    (out (step s)).connValid = true ∧ s.connValid = false) ∧
    (let s := { ready with connLocalSeq := 0x100 }
    (out (step (s.withFetchWord 32 0x80000000))).connLocalSeq ≠ s.connLocalSeq) := by decide

theorem witness_RxsegHoldsOnlyDecodedSegments :
    (out (step (received (.recv 20 synackBytes 5)))).rxseg ≠ (received (.recv 20 synackBytes 5)).rxseg := by decide

theorem witness_ErrorKindsAreRaisedByTheirCommands :
    ready.StatusOk ∧ (out (step (ready.withFetchWord 32 0x1F))).err ≠ ready.err :=
  ⟨⟨fun _ h => (by cases h), fun h => absurd rfl h⟩, by decide⟩

/-- `IRQ` rises at the end of a command and at a GO write with `IE`, and falls at a `STATUS` write and at a GO write. -/
theorem witness_InterruptChangesOnlyAsListed :
    (let s := { sending with ie := true, response := some (.send 0) }
    s.irq = false ∧ (out (step s)).irq = true) ∧
    (ready.irq = false ∧ (out (step (ready.withFetchWord 32 0x38))).irq = true) ∧
    (let s := { ready with ie := true, done := true, schedule := [.write 2 2] }
    s.irq = true ∧ (out (step s)).irq = false) ∧
    (let s := { ready with ie := true, done := true }
    s.irq = true ∧ (out (step (s.withFetchWord 32 0x35))).irq = false) := by decide

theorem witness_HostCannotDisturbARunningCommand :
    connecting.phase ≠ .idle ∧ (0x7FFFFFFF : Word).getLsbD 31 = false ∧
    takeWrite ctrlAddr 0x7FFFFFFF connecting = .next (out (takeWrite ctrlAddr 0x7FFFFFFF connecting)) ∧
    takeWrite 206 1 connecting = .next (out (takeWrite 206 1 connecting)) := ⟨by decide, by decide, rfl, rfl⟩

theorem inv_sending : sending.Inv := by
  refine ⟨⟨by decide, fun r h => ?_⟩, ⟨by decide, by decide, by decide, by decide, by decide, by decide, by decide⟩,
    ⟨fun c h => ?_, fun h => absurd (by decide) h⟩, ?_, ?_, ?_, fun S h => ?_,
    ⟨by decide, by decide, by decide, by decide, fun r h => ?_⟩⟩
  · rw [show sending.response = none by decide] at h
    cases h
  · rw [show sending.phase = .aSynSendWait by decide] at h
    cases h
    decide
  · exact ⟨by decide, by decide⟩
  · exact (by decide : sending.discards = 0)
  · exact ⟨⟨by decide, by decide, by decide⟩, by decide⟩
  · cases h
    decide
  · rw [show sending.response = none by decide] at h
    cases h

theorem inv_recv : { listening with phase := .pSynRecvWait, outreq := some (.recv 1 60) }.Inv := by
  refine ⟨⟨rfl, fun r h => by cases h⟩, ⟨rfl, rfl, rfl, rfl, by decide, by decide, by decide⟩,
    ⟨fun c h => ?_, fun h => absurd rfl h⟩, ⟨rfl, rfl⟩, ?_, rfl, fun S h => (by cases h),
    ⟨by decide, by decide, by decide, by decide, fun r h => by cases h⟩⟩
  · cases h
    decide
  · exact (by decide : (0 : Half).toNat + (1 : Half).toNat = (1 : Half).toNat)

/-- One state for each port of the three clauses. -/
theorem witness_OutstandingRequestsHaveTheirShape :
    (checksummed.Inv ∧ checksummed.outreq.map Request.port = some .csum) ∧
    (sending.Inv ∧ sending.outreq.map Request.port = some .send) ∧
    { listening with phase := .pSynRecvWait, outreq := some (.recv 1 60) }.Inv :=
  ⟨⟨inv_checksummed, by decide⟩, ⟨inv_sending, by decide⟩, inv_recv⟩

theorem witness_SentBytesAreTheChecksummedBytes :
    checksummed.Inv ∧ checksummed.phase ≠ .cCsumWait ∧ checksummed.response = some (.csum 0x1111) ∧
    checksummed.outreq = some (.csum 1 0x20010DB8000000000000000000000001 6
      (bytes [0x1B, 0x58, 0x1B, 0x58, 0, 0, 1, 0, 0, 0, 0, 0, 0x50, 2, 3, 0xE8, 0, 0, 0, 0])) :=
  ⟨inv_checksummed, by decide, by decide, by decide⟩

theorem witness_EnabledBlockStepsExhaustTheCommand :
    step checksummed = .next (out (step checksummed)) ∧ checksummed.phase ≠ .idle ∧ nextTurn checksummed = .block ∧
    checksummed.blockEnabled = true := ⟨rfl, by decide, by decide, by decide⟩

/-- One drop with one discard left, and two. -/
theorem witness_ReceivePhaseDropsAtMostItsBudget :
    receiving.ReceivePhase .aSynackRecvIssue .aSynackRecvWait (SynackFor .both 7000 7000 0x100) ∧
    receiving.phase = .aSynackRecvIssue ∧ receiving.deadline = false ∧
    (∀ x ∈ [Response.recv 20 synBytes 0, .recv 12 shortBytes 0],
      DroppedAnswer .tcphs1 (SynackFor .both 7000 7000 0x100) x) ∧
    [Response.recv 20 synBytes 0].length ≤ receiving.retryLeft.toNat ∧
    [Response.recv 20 synBytes 0, .recv 12 shortBytes 0].length = receiving.retryLeft.toNat + 1 := by
  refine ⟨rp_receiving, rfl, rfl, fun x hx => ?_, by decide, by decide⟩
  rcases List.mem_cons.1 hx with rfl | hx
  · exact ⟨_, _, _, rfl, received_syn, dropped_syn⟩
  · cases List.mem_singleton.1 hx
    exact ⟨_, _, _, rfl, received_short, dropped_short _⟩

theorem witness_ConnectReachesEstablished :
    ready.phase = .idle ∧ ready.deadline = false ∧ exec (.connect false) ready = .next connecting ∧
    0 < (20 : Word).toInt ∧ DroppedAnswer .tcphs1 (SynackFor .both 7000 7000 0x100) (.recv 20 synBytes 0) ∧
    [Response.recv 20 synBytes 0].length ≤ ready.argBudget.toNat ∧ Received .tcphs1 20 synackBytes ∧
    decodeFn synackBytes = some synackSeg ∧ SynackFor .both ready.argPort ready.argLport connecting.isnReg synackSeg :=
  ⟨rfl, rfl, rfl, by decide, ⟨_, _, _, rfl, received_syn, dropped_syn⟩, by decide, received_synack, by decide,
    by unfold SynackFor PortsFor; decide⟩

/-- LISTEN with its draw 0x900, settled after a dropped segment, up to the drawing of its number. -/
theorem witness_ListenReachesEstablished :
    let s := ready
    let w := receiveAttemptDrawing (some 0x900) (.recv 20 synBytes 6)
      (receiveAttempts [.recv 12 shortBytes 6] (out (exec (.listen false) s)))
    s.phase = .idle ∧ s.deadline = false ∧ exec (.listen false) s = .next (out (exec (.listen false) s)) ∧
    0 < (20 : Word).toInt ∧ DroppedAnswer .tcphs1 (SynFor s.argPort) (.recv 12 shortBytes 6) ∧
    [Response.recv 12 shortBytes 6].length ≤ s.argBudget.toNat ∧ Received .tcphs1 20 synBytes ∧
    decodeFn synBytes = some synSeg ∧ SynFor s.argPort synSeg ∧
    DroppedAnswer .tcphs1 (AckFor s.argPort w.isnReg synSeg.seq) (.recv 12 shortBytes 6) ∧ Received .tcphs1 20 ackBytes ∧
    decodeFn ackBytes = some ackSeg ∧ AckFor s.argPort w.isnReg synSeg.seq ackSeg :=
  ⟨rfl, rfl, rfl, by decide, ⟨_, _, _, rfl, received_short, dropped_short _⟩, by decide, received_syn, by decide,
    by unfold SynFor; decide, ⟨_, _, _, rfl, received_short, dropped_short _⟩, received_ack, by decide,
    by unfold AckFor; decide⟩

/-- Under TCPHS-1's port check, whose premise holds of any ports, and under ARG_DST. -/
theorem witness_TwoBlocksHandshakeWithEachOther :
    ready.phase = .idle ∧ ready.deadline = false ∧ ready.argPort = { ready with argSession := 7 }.argPort ∧
    exec (.connect false) ready = .next connecting ∧
    exec (.listen false) { ready with argSession := 7 } =
      .next (out (exec (.listen false) { ready with argSession := 7 })) ∧
    0 < (1 : Word).toInt ∧ ready.params.activePortCheck ≠ .argDst ∧ ready.argLport = ready.argPort :=
  ⟨rfl, rfl, rfl, rfl, rfl, by decide, by decide, rfl⟩

end Sys2Proof.Tests
end

section
/-! PROOFS. Every step of the machine has a next state (O45), and every step of every agent keeps the invariant of the
block (O47). Both go by `step_keeps`, which says once what a property must survive. -/

namespace Sys2Proof.Machine

variable {s : State}

/-! ## Every step has a next state, and keeps the parameters -/

/-- No turn is a fault or a refusal (93_implementation_defined.md, after I26). -/
theorem step_next (s : State) : ∃ t, step s = .next t := by
  rw [step_eq]
  cases nextTurn s
  case write a v =>
    simp only [takeTurn, takeWrite]
    cases decode a v with
    | error e => exact ⟨_, rfl⟩
    | ok i =>
      rcases exec_cases i (fetched s) with ⟨c, ie, f, -, e⟩ | ⟨-, e⟩ | ⟨c, ie, -, e⟩
      all_goals exact ⟨_, e⟩
  all_goals exact ⟨_, rfl⟩

theorem discard_params (back : Phase) (s : State) : (discard back s).params = s.params := by
  rcases discard_cases back s with ⟨-, e⟩ | ⟨-, e⟩ <;> exact (congrArg State.params e :)

theorem issueRecv_params (wait : Phase) (s : State) : (issueRecv wait s).params = s.params := by
  rcases issueRecv_cases wait s with ⟨-, e⟩ | ⟨-, e⟩ <;> exact (congrArg State.params e :)

theorem recvRespond_params {acc : Segment → State → State} (hacc : ∀ d s, (acc d s).params = s.params) (back : Phase)
    (m : Segment → State → Bool) (r : Word) (bs : List Byte) (s : State) :
    (recvRespond back m acc r bs s).params = s.params := by
  rcases recvRespond_cases back m acc r bs s with ⟨-, e⟩ | ⟨-, -, e⟩ | ⟨d, -, -, -, e⟩ | ⟨d, -, -, -, e⟩ <;> rw [e]
  · rfl
  · exact discard_params _ _
  · exact discard_params _ _
  · exact hacc _ _

theorem sendRespond_params {sent : State → State} (hsent : ∀ s, (sent s).params = s.params) (r : Word) (s : State) :
    (sendRespond sent r s).params = s.params := by
  rcases sendRespond_cases sent r s with ⟨-, e⟩ | ⟨-, e⟩ <;> rw [e]
  · rfl
  · exact hsent _

theorem sessRespond_cases (ok : Bool) (h : Session) (s : State) :
    (ok = true ∧ sessRespond ok h s = completePassive h s) ∨
    (ok = false ∧ sessRespond ok h s = fail .sessionOpenFailure s) := by
  cases ok
  · exact .inr ⟨rfl, rfl⟩
  · exact .inl ⟨rfl, rfl⟩

theorem blockStep_params (s : State) : (blockStep s).params = s.params := by
  rcases blockStep_cases s with e | ⟨c, -, -, e⟩ | ⟨c, -, -, e⟩ | ⟨r, -, -, e⟩ | ⟨-, e⟩ | ⟨r, bs, a, -, -, e⟩ |
    ⟨c, -, -, e⟩ | ⟨r, -, -, e⟩ | ⟨-, e⟩ | ⟨r, bs, a, -, -, e⟩ | ⟨c, -, -, e⟩ | ⟨r, -, -, e⟩ | ⟨-, e⟩ |
    ⟨r, bs, a, -, -, e⟩ | ⟨ok, h, -, -, e⟩ <;> rw [e]
  · rfl
  · rfl
  · exact sendRespond_params (sent := synSent) (fun _ => rfl) r _
  · exact issueRecv_params _ s
  · exact recvRespond_params (acc := acceptSynack) (fun _ _ => rfl) _ _ r bs _
  · rfl
  · exact sendRespond_params (sent := completeActive) (fun _ => rfl) r _
  · exact issueRecv_params _ s
  · exact recvRespond_params (acc := acceptSyn a) (fun _ _ => rfl) _ _ r bs _
  · rfl
  · exact sendRespond_params (sent := synackSent) (fun _ => rfl) r _
  · exact issueRecv_params _ s
  · exact recvRespond_params (acc := acceptAck) (fun _ _ => rfl) _ _ r bs _
  · rcases sessRespond_cases ok h (clearPort s) with ⟨-, e⟩ | ⟨-, e⟩ <;> exact (congrArg State.params e :)

theorem start_params {i : Instr} {c : BitVec 4} {ie : Bool} {f : State → State} (h : startOf i = some (c, ie, f))
    (s : State) : (f s).params = s.params := by
  rcases startOf_cases h with ⟨-, rfl⟩ | ⟨-, rfl⟩ | ⟨-, rfl⟩ | ⟨-, rfl⟩ | ⟨-, rfl⟩ | ⟨e, rfl⟩
  · unfold startEncode; split <;> rfl
  · unfold startDecode; split <;> rfl
  · unfold startCsum; split <;> rfl
  · rfl
  · rfl
  · rfl

theorem step_params {t : State} (h : step s = .next t) : t.params = s.params := by
  refine step_keeps (fun u => u.params = s.params) ?frame ?resp ?reset ?block ?status ?flags ?arg ?session ?addr ?tx
    ?rx ?rxlen ?start rfl h
  case block => exact fun u hu => (blockStep_params u).trans hu
  case start => exact fun i c ie f u hf hu _ => (start_params hf _).trans hu
  all_goals intros; assumption

/-- Settles O45, by the agent that moves: each turn answers a next state, and no rule writes the parameters. -/
theorem everyStepHasANextState : Obligations.EveryStepHasANextState := by
  intro s
  obtain ⟨t, ht⟩ := step_next s
  exact ⟨t, ht, step_params ht⟩

/-! ## The parts of the invariant -/

/-- The widths of the registers: `WidthsOk` without the delivered response. -/
def State.RegWidthsOk (s : State) : Prop :=
  keepAddr s.params s.argAddr = s.argAddr ∧ keepAddr s.params s.peerAddr = s.peerAddr ∧
    keepSession s.params s.argSession = s.argSession ∧ keepSession s.params s.connSession = s.connSession

/-- All that the invariant says of a delivered response. -/
def State.ResponseOk (s : State) : Prop :=
  ∀ r, s.response = some r →
    r.shapeOk s.params = true ∧ s.outreq.map Request.port = some r.port ∧ r.keep s.params = r

/-- The invariant without the ports: what a rule hands on, whatever request it places or drops. -/
def State.KeptOk (s : State) : Prop :=
  s.BuffersOk ∧ s.StatusOk ∧ s.ConnOk ∧ s.BudgetOk ∧ s.SegmentOk ∧ s.RegWidthsOk

/-- The Connection outside a handshake: `ConnOk` of a phase without a live state (10_state.md R40). -/
def State.SettledOk (s : State) : Prop :=
  s.connState = .closed ∧ s.connValid = false ∨ s.connState = .established ∧ s.connValid = true

/-- What the invariant says of an idle block. -/
def State.IdleOk (s : State) : Prop :=
  s.BuffersOk ∧
    (s.failState ≠ .closed →
      s.err = .sendFailure ∨ s.err = .receiveFailure ∨ s.err = .handshakeTimeout ∨ s.err = .sessionOpenFailure) ∧
    s.SettledOk ∧ s.outreq = none ∧ s.response = none ∧ s.RegWidthsOk

/-- The request of a phase is of the port the phase waits on. -/
theorem requestOk_port (h : s.RequestOk) : s.outreq.map Request.port = s.phase.waitsOn := by
  unfold State.RequestOk at h
  cases hp : s.phase <;> simp only [hp] at h
  case cCsumWait | aSynCsumWait | aAckCsumWait | pSynackCsumWait => rw [h.2.2]; rfl
  case aSynSendWait | aAckSendWait | pSynackSendWait => rw [h.2]; rfl
  all_goals rw [h]; rfl

theorem inv_iff : s.Inv ↔ s.KeptOk ∧ s.RequestOk ∧ s.ResponseOk := by
  constructor
  · rintro ⟨⟨-, hans⟩, hbuf, hstat, hconn, hbud, hreq, hseg, h1, h2, h3, h4, hkeep⟩
    refine ⟨⟨hbuf, hstat, hconn, hbud, hseg, h1, h2, h3, h4⟩, hreq, fun r e => ?_⟩
    obtain ⟨hshape, hport⟩ := hans r e
    exact ⟨hshape, hport, hkeep r e⟩
  · rintro ⟨⟨hbuf, hstat, hconn, hbud, hseg, h1, h2, h3, h4⟩, hreq, hresp⟩
    have hans : ∀ r, s.response = some r → r.shapeOk s.params = true ∧ s.outreq.map Request.port = some r.port :=
      fun r e => let ⟨hshape, hport, _⟩ := hresp r e; ⟨hshape, hport⟩
    have hkeep : ∀ r, s.response = some r → r.keep s.params = r := fun r e => let ⟨_, _, hk⟩ := hresp r e; hk
    exact ⟨⟨requestOk_port hreq, hans⟩, hbuf, hstat, hconn, hbud, hreq, hseg, h1, h2, h3, h4, hkeep⟩

theorem inv_of_keptOk (hk : s.KeptOk) (hq : s.RequestOk) (hr : s.response = none) : s.Inv :=
  inv_iff.2 ⟨hk, hq, fun r e => by rw [hr] at e; cases e⟩

/-- The invariant at a known phase: with the phase written out, each of its parts computes. -/
theorem inv_atPhase {p : Phase} (hp : s.phase = p) (h : s.Inv) :
    let u : State := { s with phase := p }
    u.KeptOk ∧ u.RequestOk ∧ u.ResponseOk := by
  subst hp; exact inv_iff.1 h

/-- No response without an outstanding request (20_memory.md R86). -/
theorem response_eq_none (h : s.ResponseOk) (hq : s.outreq = none) : s.response = none := by
  cases hr : s.response with
  | none => rfl
  | some r =>
    obtain ⟨-, hport, -⟩ := h r hr
    rw [hq] at hport
    cases hport

theorem idleOk_of_inv (hp : s.phase = .idle) (h : s.Inv) : s.IdleOk := by
  obtain ⟨⟨hbuf, ⟨-, hfail⟩, hconn, -, -, hw⟩, hq, hresp⟩ := inv_atPhase hp h
  exact ⟨hbuf, hfail, hconn, hq, response_eq_none hresp hq, hw⟩

theorem inv_of_idleOk (hp : s.phase = .idle) (h : s.IdleOk) : s.Inv := by
  obtain ⟨hbuf, hfail, hconn, hq, hr, hw⟩ := h
  have : ({ s with phase := .idle } : State).Inv :=
    inv_of_keptOk ⟨hbuf, ⟨nofun, hfail⟩, hconn, trivial, nofun, hw⟩ hq hr
  rwa [← hp] at this

/-! ## The buffers -/

/-- `TXBUF` after a segment is encoded into it (40_codec.md R162, R170). The state is given by its buffers, and the bytes
stay behind an equation: unifying two `Memory.writeBytes` by computation does not end in good time. -/
theorem buffersOk_encode {S : Segment} {u : State} (h5 : 5 ≤ S.doff.toNat) (h : s.BuffersOk)
    (htx : u.txbuf = Memory.writeBytes s.txbuf 0 (encodeFn S)) (hlen : u.txlen = BitVec.ofNat 7 (headerLen S))
    (hrx : u.rxbuf = s.rxbuf) (hrxlen : u.rxlen = s.rxlen) (hparams : u.params = s.params) : u.BuffersOk := by
  obtain ⟨htwf, htlt, hrwf, hrlt, hrlen, -, -⟩ := h
  have henc : 0 + (encodeFn S).length ≤ Config.txBufBytes := by rw [Nat.zero_add]; exact length_encodeFn_le S
  have hdoff : S.doff.toNat < 16 := S.doff.isLt
  unfold State.BuffersOk
  rw [htx, hlen, hrx, hrxlen, hparams, txlen_headerLen]
  refine ⟨writeBytes_wf _ _ htwf, writeBytes_below htlt henc, hrwf, hrlt, hrlen, .inr ?_, fun o ho => ?_⟩
  · rw [headerLen]; omega
  · rw [← length_encodeFn_wf h5] at ho
    rw [read_writeBytes_encodeFn _ ho, List.getElem?_eq_getElem ho, Option.isSome_some]

theorem buffersOk_ckbind (a : Addr) (h5 : 5 ≤ s.txseg.doff.toNat) (h : s.BuffersOk) : (ckbind a s).BuffersOk :=
  buffersOk_encode (S := { s.txseg with checksum := 0 }) h5 h (ckbind_txbuf a s) (ckbind_txlen a s) (ckbind_rxbuf a s)
    (ckbind_rxlen a s) (ckbind_params a s)

theorem isSome_read_writeBytes {m : Memory} {o : Nat} (a : Nat) (vs : List Byte) (h : (Memory.read m o).isSome = true) :
    (Memory.read (Memory.writeBytes m a vs) o).isSome = true := by
  rw [read_writeBytes]
  split
  · rfl
  · exact h

theorem buffersOk_insertCk (c : Half) (h : s.BuffersOk) : (insertCk c s).BuffersOk := by
  obtain ⟨htwf, htlt, hrwf, hrlt, hrlen, htlen, hwritten⟩ := h
  have hlen : 16 + (put16 c).length ≤ Config.txBufBytes := by simp [put16, Config.txBufBytes]
  exact ⟨writeBytes_wf _ _ htwf, writeBytes_below htlt hlen, hrwf, hrlt, hrlen, htlen,
    fun o ho => isSome_read_writeBytes _ _ (hwritten o ho)⟩

theorem buffersOk_rxStore (r : Word) (bs : List Byte) (h : s.BuffersOk) : (rxStore r bs s).BuffersOk := by
  obtain ⟨htwf, htlt, hrwf, hrlt, -, htlen, hwritten⟩ := h
  have hcount := rxCount_le s.params r
  have hlen : 0 + (bs.take (rxCount s.params r)).length ≤ s.params.rxBufBytes := by simp; omega
  refine ⟨htwf, htlt, writeBytes_wf _ _ hrwf, writeBytes_below hrlt hlen, ?_, htlen, hwritten⟩
  rw [rxStore_rxlen_toNat]
  exact hcount

theorem buffersOk_hostRx {k : Fin 64} (hk : k.val < s.params.rxBufBytes / 4) (v : Word) (h : s.BuffersOk) :
    ({ s with rxbuf := Memory.writeBytes s.rxbuf (4 * k.val) (put32 v) } : State).BuffersOk := by
  obtain ⟨htwf, htlt, hrwf, hrlt, hrlen, htlen, hwritten⟩ := h
  have hlen : 4 * k.val + (put32 v).length ≤ s.params.rxBufBytes := by simp [put32]; omega
  exact ⟨htwf, htlt, writeBytes_wf _ _ hrwf, writeBytes_below hrlt hlen, hrlen, htlen, hwritten⟩

theorem clampRxlen_le (P : Params) (v : Word) : (clampRxlen P v).toNat ≤ P.rxBufBytes :=
  calc (clampRxlen P v).toNat ≤ min (v.extractLsb' 0 16).toNat P.rxBufBytes := by
        rw [clampRxlen, BitVec.toNat_ofNat]; exact Nat.mod_le _ _
    _ ≤ P.rxBufBytes := Nat.min_le_right _ _

theorem buffersOk_hostRxlen (v : Word) (h : s.BuffersOk) :
    ({ s with rxlen := clampRxlen s.params v } : State).BuffersOk := by
  obtain ⟨htwf, htlt, hrwf, hrlt, -, htlen, hwritten⟩ := h
  exact ⟨htwf, htlt, hrwf, hrlt, clampRxlen_le _ _, htlen, hwritten⟩

/-! ## The ends of a command -/

theorem inv_finishOk (hbuf : s.BuffersOk) (hconn : s.SettledOk) (hw : s.RegWidthsOk) : (finishOk s).Inv :=
  inv_of_idleOk rfl ⟨hbuf, fun h => absurd rfl h, hconn, rfl, rfl, hw⟩

theorem inv_endCodec (e : ErrKind) (hbuf : s.BuffersOk) (hconn : s.SettledOk) (hw : s.RegWidthsOk) : (endCodec e s).Inv :=
  inv_of_idleOk rfl ⟨hbuf, fun h => absurd rfl h, hconn, rfl, rfl, hw⟩

theorem inv_fail {e : ErrKind}
    (he : e = .sendFailure ∨ e = .receiveFailure ∨ e = .handshakeTimeout ∨ e = .sessionOpenFailure)
    (hbuf : s.BuffersOk) (hw : s.RegWidthsOk) : (fail e s).Inv :=
  inv_of_idleOk rfl ⟨hbuf, fun _ => he, .inl ⟨rfl, rfl⟩, rfl, rfl, hw⟩

theorem inv_resetOf (P : Params) : (State.resetOf P).Inv := by
  refine inv_of_idleOk rfl ⟨⟨rfl, rfl, rfl, rfl, Nat.zero_le _, .inl rfl, fun o ho => ?_⟩, fun h => absurd rfl h,
    .inl ⟨rfl, rfl⟩, rfl, rfl, keepAddr_zero P, keepAddr_zero P, keepSession_zero P, keepSession_zero P⟩
  exact absurd ho (Nat.not_lt_zero o)

/-! ## The host's and the environment's turns -/

theorem inv_deliver {r : Response} (h : s.Inv) (hc : canAnswer r s = true) :
    ({ s with response := some (r.keep s.params) } : State).Inv := by
  obtain ⟨hk, hq, -⟩ := inv_iff.1 h
  obtain ⟨hshape, -, hport⟩ := (canAnswer_iff r s).1 hc
  refine inv_iff.2 ⟨hk, hq, fun x hx => ?_⟩
  cases hx
  exact ⟨(keep_shapeOk _ _).trans hshape, hport.trans (congrArg some (keep_port _ _).symm), keep_keep _ _⟩

theorem inv_writeStatus (v : Word) (h : s.Inv) : (writeStatus v s).Inv := by
  obtain ⟨⟨hbuf, ⟨hrun, hfail⟩, hkept⟩, hports⟩ := inv_iff.1 h
  refine inv_iff.2 ⟨⟨hbuf, ⟨fun c hc => ?_, hfail⟩, hkept⟩, hports⟩
  obtain ⟨hcmd, hdone, herr, hfs⟩ := hrun c hc
  exact ⟨hcmd, by simp [writeStatus, hdone], herr, hfs⟩

/-! ## The start rules -/

theorem ckbind_withPhase (a : Addr) (p : Phase) (s : State) :
    ({ ckbind a s with phase := p } : State) = ckbind a { s with phase := p } := by
  simp only [ckbind, request]

/-- A phase that begins by binding `TXSEG` asks for its checksum (40_codec.md R170); `hq` says that this is the request of
the phase `p`. -/
theorem inv_ckbind {a : Addr} {p : Phase} (h5 : 5 ≤ s.txseg.doff.toNat) (hk : ({ s with phase := p } : State).KeptOk)
    (hq : (ckbind a { s with phase := p }).AsksChecksum a → (ckbind a { s with phase := p }).RequestOk) :
    ({ ckbind a s with phase := p } : State).Inv := by
  obtain ⟨hbuf, hstat, hconn, hbud, hseg, hw⟩ := hk
  rw [ckbind_withPhase]
  exact inv_of_keptOk ⟨buffersOk_ckbind a h5 hbuf, hstat, hconn, hbud, hseg, hw⟩ (hq (ckbind_asksChecksum a h5)) rfl

/-- What the prologue of the command `c` leaves of an idle block (20_memory.md R82). -/
def State.StartOk (c : BitVec 4) (s : State) : Prop :=
  s.IdleOk ∧ (s.cmd = c ∧ s.done = false ∧ s.err = .none ∧ s.failState = .closed) ∧ s.discards = 0

theorem startOk_prologue (hp : s.phase = .idle) (h : s.Inv) (ie : Bool) (c : BitVec 4) :
    (prologue { s with ie := ie, cmd := c }).StartOk c := by
  obtain ⟨hbuf, -, hconn, hq, hr, hw⟩ := idleOk_of_inv hp h
  exact ⟨⟨hbuf, fun hf => absurd rfl hf, hconn, hq, hr, hw⟩, ⟨rfl, rfl, rfl, rfl⟩, rfl⟩

/-- The prologue of `c` has done what `StatusOk` asks of a phase of the command `c`. -/
theorem statusOk_of_startOk {c : BitVec 4} {p : Phase} (hc : p.command = some c) (h : s.StartOk c) :
    ({ s with phase := p } : State).StatusOk := by
  obtain ⟨-, ⟨hcmd, hdone, herr, hfs⟩, -⟩ := h
  refine ⟨fun c' hc' => ?_, fun hf => absurd hfs hf⟩
  cases hc.symm.trans hc'
  exact ⟨hcmd, hdone, herr, hfs⟩

theorem inv_startEncode (h : s.IdleOk) : (startEncode s).Inv := by
  obtain ⟨hbuf, -, hconn, -, -, hw⟩ := h
  unfold startEncode
  split
  · exact inv_endCodec _ hbuf hconn hw
  · next h5 =>
    generalize htx : Memory.writeBytes s.txbuf 0 (encodeFn s.txseg) = m
    exact inv_finishOk (buffersOk_encode (Nat.le_of_not_lt h5) hbuf htx.symm rfl rfl rfl rfl) hconn hw

theorem inv_startDecode (h : s.IdleOk) : (startDecode s).Inv := by
  obtain ⟨hbuf, -, hconn, -, -, hw⟩ := h
  unfold startDecode
  split
  · exact inv_endCodec _ hbuf hconn hw
  · exact inv_finishOk hbuf hconn hw

theorem inv_startCsum (h : s.StartOk 0x3) : (startCsum s).Inv := by
  have hstat := statusOk_of_startOk (p := .cCsumWait) rfl h
  obtain ⟨⟨hbuf, -, hconn, -, -, hw⟩, -, hdisc⟩ := h
  unfold startCsum
  split
  · exact inv_endCodec _ hbuf hconn hw
  · next h5 =>
    exact inv_ckbind (Nat.le_of_not_lt h5) ⟨hbuf, hstat, hconn, hdisc, nofun, hw⟩ id

theorem inv_startConnect (h : s.StartOk 0x4) : (startConnect s).Inv := by
  have hstat := statusOk_of_startOk (p := .aSynCsumWait) rfl h
  obtain ⟨⟨hbuf, -, -, -, -, hw⟩, -, hdisc⟩ := h
  refine inv_ckbind (Nat.le_refl 5) ⟨hbuf, hstat, ⟨rfl, rfl⟩, hdisc, fun S hS => ?_, hw⟩ id
  cases hS
  rfl

theorem inv_startListen (h : s.StartOk 0x5) : (startListen s).Inv := by
  have hstat := statusOk_of_startOk (p := .pSynRecvIssue) rfl h
  obtain ⟨⟨hbuf, -, -, hq, hr, hw⟩, -, hdisc⟩ := h
  refine inv_of_keptOk
    ⟨hbuf, hstat, ⟨rfl, rfl⟩, ?_, nofun, hw⟩ hq hr
  change s.discards.toNat + s.argBudget.toNat = s.argBudget.toNat
  rw [hdisc]
  exact Nat.zero_add _

/-- The start rule of a command, run on what the prologue leaves. -/
theorem inv_start {i : Instr} {c : BitVec 4} {ie : Bool} {f : State → State} (hs : startOf i = some (c, ie, f))
    (h : s.StartOk c) : (f s).Inv := by
  rcases startOf_cases hs with ⟨-, rfl⟩ | ⟨-, rfl⟩ | ⟨rfl, rfl⟩ | ⟨rfl, rfl⟩ | ⟨rfl, rfl⟩ | ⟨e, rfl⟩
  · exact inv_startEncode h.1
  · exact inv_startDecode h.1
  · exact inv_startCsum h
  · exact inv_startConnect h
  · exact inv_startListen h
  · obtain ⟨⟨hbuf, -, hconn, -, -, hw⟩, -⟩ := h
    exact inv_endCodec e hbuf hconn hw

/-! ## The shared shapes of a response step -/

theorem inv_sendRespond {sent : State → State} (r : Word) (hbuf : s.BuffersOk) (hw : s.RegWidthsOk)
    (hsent : (sent s).Inv) : (sendRespond sent r s).Inv := by
  rcases sendRespond_cases sent r s with ⟨-, e⟩ | ⟨-, e⟩ <;> rw [e]
  · exact inv_fail (.inl rfl) hbuf hw
  · exact hsent

theorem inv_issueRecv {wait : Phase} (hk : ({ s with phase := wait } : State).KeptOk)
    (hq : ({ request (.recv s.argSession s.params.rxBufBytes) s with phase := wait } : State).RequestOk) :
    (issueRecv wait s).Inv := by
  obtain ⟨hbuf, -, -, -, -, hw⟩ := id hk
  rcases issueRecv_cases wait s with ⟨-, e⟩ | ⟨-, e⟩ <;> rw [e]
  · exact inv_fail (.inr (.inr (.inl rfl))) hbuf hw
  · exact inv_of_keptOk hk hq rfl

theorem toNat_nextDiscards (d : Half) : (nextDiscards d).toNat = min (d.toNat + 1) 65535 := by
  unfold nextDiscards
  split <;> bv_omega

/-- The issue phases, to which a discard goes back. -/
def Phase.isIssue (p : Phase) : Prop := p = .aSynackRecvIssue ∨ p = .pSynRecvIssue ∨ p = .pAckRecvIssue

theorem requestOk_issue {p : Phase} (hp : p.isIssue) (hq : s.outreq = none) :
    ({ s with phase := p } : State).RequestOk := by
  rcases hp with rfl | rfl | rfl <;> exact hq

/-- A discard moves one from the retries left to the discards counted, or to the discards already saturated. -/
theorem budgetOk_discard {back : Phase} (hback : back.isIssue) (hne : s.retryLeft ≠ 0)
    (h : ({ s with phase := back } : State).BudgetOk) :
    ({ s with discards := nextDiscards s.discards, retryLeft := s.retryLeft - 1, phase := back } : State).BudgetOk := by
  have hd := toNat_nextDiscards s.discards
  have hr : (s.retryLeft - 1).toNat + 1 = s.retryLeft.toNat := by bv_omega
  have hb := s.argBudget.isLt
  rcases hback with rfl | rfl | rfl <;> simp only [State.BudgetOk] at h ⊢ <;> omega

theorem inv_discard {back : Phase} (hback : back.isIssue) (hk : ({ s with phase := back } : State).KeptOk)
    (hq : s.outreq = none) (hr : s.response = none) : (discard back s).Inv := by
  obtain ⟨hbuf, hstat, hconn, hbud, hseg, hw⟩ := hk
  rcases discard_cases back s with ⟨-, e⟩ | ⟨hne, e⟩ <;> rw [e]
  · exact inv_fail (.inr (.inr (.inl rfl))) hbuf hw
  · exact inv_of_keptOk ⟨hbuf, hstat, hconn, budgetOk_discard hback hne hbud, hseg, hw⟩
      (requestOk_issue (s := { s with discards := _, retryLeft := _ }) hback hq) hr

/-- A `RECV` response step keeps the invariant when its accept step does; the other three ends are failure and discard. -/
theorem inv_recvRespond {back : Phase} {m : Segment → State → Bool} {acc : Segment → State → State} (r : Word)
    (bs : List Byte) (hback : back.isIssue) (hk : ({ s with phase := back } : State).KeptOk) (hq : s.outreq = none)
    (hr : s.response = none)
    (hacc : ∀ d u, u.params = s.params → ({ u with phase := back } : State).KeptOk → m d u = true → (acc d u).Inv) :
    (recvRespond back m acc r bs s).Inv := by
  obtain ⟨hbuf, hstat, hconn, hbud, hseg, hw⟩ := hk
  have hk' : ({ rxStore r bs s with phase := back } : State).KeptOk :=
    ⟨buffersOk_rxStore r bs hbuf, hstat, hconn, hbud, hseg, hw⟩
  rcases recvRespond_cases back m acc r bs s with ⟨-, e⟩ | ⟨-, -, e⟩ | ⟨d, -, -, -, e⟩ | ⟨d, -, -, hm, e⟩ <;> rw [e]
  · exact inv_fail (.inr (.inl rfl)) hbuf hw
  · exact inv_discard hback hk' hq hr
  · exact inv_discard hback hk' hq hr
  · exact hacc d _ rfl hk' hm

/-! ## The rule of each phase -/

theorem inv_csumRespond (c : Half) (hp : s.phase = .cCsumWait) (h : s.Inv) : (csumRespond c (clearPort s)).Inv := by
  obtain ⟨⟨hbuf, -, hconn, -, -, hw⟩, -⟩ := inv_atPhase hp h
  exact inv_finishOk (buffersOk_insertCk c hbuf) hconn hw

theorem inv_synCsumRespond (c : Half) (hp : s.phase = .aSynCsumWait) (h : s.Inv) :
    (synCsumRespond c (clearPort s)).Inv := by
  obtain ⟨⟨hbuf, hstat, ⟨-, hvalid⟩, hbud, hseg, hw⟩, ⟨henc, -⟩, -⟩ := inv_atPhase hp h
  exact inv_of_keptOk ⟨buffersOk_insertCk c hbuf, hstat, ⟨rfl, hvalid⟩, hbud, hseg, hw⟩
    (requestSend_asksSend _ (insertCk_txEncoded c henc)) rfl

theorem inv_synSent (hp : s.phase = .aSynSendWait) (h : s.Inv) : (synSent (clearPort s)).Inv := by
  obtain ⟨⟨hbuf, hstat, hconn, hdisc, hseg, hw⟩, -⟩ := inv_atPhase hp h
  refine inv_of_keptOk ⟨hbuf, hstat, hconn, ?_, hseg, hw⟩ rfl rfl
  change s.discards.toNat + s.argBudget.toNat = s.argBudget.toNat
  rw [show s.discards = 0 from hdisc]
  exact Nat.zero_add _

/-- The accepted SYN-ACK acknowledges the drawn number, so the final ACK carries it on (41_handshake_active.md R207, R210). -/
theorem inv_acceptSynack {d : Segment} (hk : ({ s with phase := .aSynackRecvIssue } : State).KeptOk)
    (hm : matchSynack d s = true) : (acceptSynack d s).Inv := by
  obtain ⟨hbuf, hstat, hconn, hbud, -, hw⟩ := hk
  have hack : d.ack = s.isnReg.succ32 := by
    obtain ⟨-, hack⟩ := Bool.and_eq_true_iff.1 hm
    exact eq_of_beq hack
  refine inv_ckbind (Nat.le_refl 5) ⟨hbuf, hstat, hconn, hbud, fun S hS => ?_, hw⟩ id
  cases hS
  simp only [ackSegment, hack]
  rfl

theorem inv_ackCsumRespond (c : Half) (hp : s.phase = .aAckCsumWait) (h : s.Inv) :
    (ackCsumRespond c (clearPort s)).Inv := by
  obtain ⟨⟨hbuf, hkept⟩, ⟨henc, -⟩, -⟩ := inv_atPhase hp h
  exact inv_of_keptOk ⟨buffersOk_insertCk c hbuf, hkept⟩ (requestSend_asksSend _ (insertCk_txEncoded c henc)) rfl

theorem inv_completeActive (hbuf : s.BuffersOk) (hw : s.RegWidthsOk) : (completeActive s).Inv := by
  obtain ⟨haddr, hpeer, hsess, -⟩ := hw
  exact inv_finishOk hbuf (.inr ⟨rfl, rfl⟩) ⟨haddr, hpeer, hsess, hsess⟩

theorem inv_acceptSyn {d : Segment} {a : Addr} (ha : keepAddr s.params a = a)
    (hk : ({ s with phase := .pSynRecvIssue } : State).KeptOk) : (acceptSyn a d s).Inv := by
  obtain ⟨hbuf, hstat, hconn, hbud, -, haddr, -, hsess⟩ := hk
  refine inv_ckbind (Nat.le_refl 5) ⟨hbuf, hstat, hconn, hbud, fun S hS => ?_, haddr, ha, hsess⟩ id
  cases hS
  rfl

theorem inv_synackCsumRespond (c : Half) (hp : s.phase = .pSynackCsumWait) (h : s.Inv) :
    (synackCsumRespond c (clearPort s)).Inv := by
  obtain ⟨⟨hbuf, hkept⟩, ⟨henc, -⟩, -⟩ := inv_atPhase hp h
  exact inv_of_keptOk ⟨buffersOk_insertCk c hbuf, hkept⟩ (requestSend_asksSend _ (insertCk_txEncoded c henc)) rfl

theorem inv_synackSent (hp : s.phase = .pSynackSendWait) (h : s.Inv) : (synackSent (clearPort s)).Inv := by
  obtain ⟨⟨hbuf, hstat, ⟨-, hvalid⟩, -, hseg, hw⟩, -⟩ := inv_atPhase hp h
  refine inv_of_keptOk ⟨hbuf, hstat, ⟨rfl, hvalid⟩, ⟨Nat.le_refl _, ?_⟩, hseg, hw⟩ rfl rfl
  exact (Nat.sub_self s.argBudget.toNat).trans_le (Nat.zero_le _)

theorem inv_acceptAck {d : Segment} (hk : ({ s with phase := .pAckRecvIssue } : State).KeptOk) :
    (acceptAck d s).Inv :=
  inv_of_keptOk hk rfl rfl

theorem inv_sessRespond {ok : Bool} {x : Session} (hx : keepSession s.params x = x) (hbuf : s.BuffersOk)
    (hw : s.RegWidthsOk) : (sessRespond ok x s).Inv := by
  rcases sessRespond_cases ok x s with ⟨-, e⟩ | ⟨-, e⟩ <;> rw [e]
  · obtain ⟨haddr, hpeer, hsess, -⟩ := hw
    exact inv_finishOk hbuf (.inr ⟨rfl, rfl⟩) ⟨haddr, hpeer, hsess, hx⟩
  · exact inv_fail (.inr (.inr (.inr rfl))) hbuf hw

/-! ## The block's step, and every step -/

theorem keepAddr_of_recv {r : Word} {bs : List Byte} {a : Addr} (h : s.Inv) (hr : s.response = some (.recv r bs a)) :
    keepAddr s.params a = a := by
  obtain ⟨-, -, hresp⟩ := inv_iff.1 h
  obtain ⟨-, -, hkeep⟩ := hresp _ hr
  injection hkeep

theorem keepSession_of_sess {ok : Bool} {x : Session} (h : s.Inv) (hr : s.response = some (.sess ok x)) :
    keepSession s.params x = x := by
  obtain ⟨-, -, hresp⟩ := inv_iff.1 h
  obtain ⟨-, -, hkeep⟩ := hresp _ hr
  injection hkeep

theorem inv_endStep (h : s.Inv) : (endStep s).Inv := h

theorem inv_blockStep (h : s.Inv) : (blockStep s).Inv := by
  obtain ⟨⟨hbuf, -, -, -, -, hw⟩, -⟩ := inv_iff.1 h
  have kept {p : Phase} (hp : s.phase = p) := (inv_atPhase hp h).1
  rcases blockStep_cases s with e | ⟨c, hp, -, e⟩ | ⟨c, hp, -, e⟩ | ⟨r, hp, -, e⟩ | ⟨hp, e⟩ | ⟨r, bs, a, hp, -, e⟩ |
    ⟨c, hp, -, e⟩ | ⟨r, hp, -, e⟩ | ⟨hp, e⟩ | ⟨r, bs, a, hp, hr, e⟩ | ⟨c, hp, -, e⟩ | ⟨r, hp, -, e⟩ | ⟨hp, e⟩ |
    ⟨r, bs, a, hp, -, e⟩ | ⟨ok, x, hp, hr, e⟩ <;> rw [e]
  · exact h
  all_goals apply inv_endStep
  · exact inv_csumRespond c hp h
  · exact inv_synCsumRespond c hp h
  · exact inv_sendRespond (sent := synSent) r (s := clearPort s) hbuf hw (inv_synSent hp h)
  · exact inv_issueRecv (wait := .aSynackRecvWait) (kept hp :) rfl
  · exact inv_recvRespond (s := clearPort s) r bs (.inl rfl) (kept hp :) rfl rfl fun _ _ _ => inv_acceptSynack
  · exact inv_ackCsumRespond c hp h
  · exact inv_sendRespond (sent := completeActive) r (s := clearPort s) hbuf hw (inv_completeActive hbuf hw)
  · exact inv_issueRecv (wait := .pSynRecvWait) (kept hp :) rfl
  · exact inv_recvRespond (s := clearPort s) r bs (.inr (.inl rfl)) (kept hp :) rfl rfl
      fun _ u hu hk _ => inv_acceptSyn (hu.symm ▸ keepAddr_of_recv (s := s) h hr) hk
  · exact inv_synackCsumRespond c hp h
  · exact inv_sendRespond (sent := synackSent) r (s := clearPort s) hbuf hw (inv_synackSent hp h)
  · exact inv_issueRecv (wait := .pAckRecvWait) (kept hp :) rfl
  · exact inv_recvRespond (s := clearPort s) r bs (.inr (.inr rfl)) (kept hp :) rfl rfl fun _ _ _ hk _ => inv_acceptAck hk
  · exact inv_sessRespond (s := clearPort s) (keepSession_of_sess (s := s) h hr) hbuf hw

/-- Settles O47: each kind of change a step makes keeps the invariant; what a block does while idle goes by `IdleOk`, and
a command's own steps by the rule of each phase. -/
theorem everyStepKeepsInv : Obligations.EveryStepKeepsInv := by
  intro s t h hst
  refine step_keeps State.Inv ?frame ?resp ?reset ?block ?status ?flags ?arg ?session ?addr ?tx ?rx ?rxlen ?start h hst
  case frame => exact fun _ _ _ _ _ _ h => h
  case resp => exact fun _ _ => inv_deliver
  case reset => exact fun s _ => inv_resetOf s.params
  case block => exact fun _ => inv_blockStep
  case status => exact fun _ => inv_writeStatus
  case flags => exact fun _ _ _ _ h => h
  case arg => exact fun _ _ _ _ _ h hp => inv_of_idleOk hp (idleOk_of_inv hp h :)
  case session =>
    intro s v h hp
    obtain ⟨hbuf, hfail, hconn, hq, hr, haddr, hpeer, -, hcsess⟩ := idleOk_of_inv hp h
    exact inv_of_idleOk hp ⟨hbuf, hfail, hconn, hq, hr, haddr, hpeer, keepSession_keepSession _ _, hcsess⟩
  case addr =>
    intro s a h hp
    obtain ⟨hbuf, hfail, hconn, hq, hr, -, hwidths⟩ := idleOk_of_inv hp h
    exact inv_of_idleOk hp ⟨hbuf, hfail, hconn, hq, hr, keepAddr_keepAddr _ _, hwidths⟩
  case tx => exact fun _ _ h hp => inv_of_idleOk hp (idleOk_of_inv hp h :)
  case rx =>
    intro s k v h hk hp
    obtain ⟨hbuf, hidle⟩ := idleOk_of_inv hp h
    exact inv_of_idleOk hp ⟨buffersOk_hostRx hk v hbuf, hidle⟩
  case rxlen =>
    intro s v h hp
    obtain ⟨hbuf, hidle⟩ := idleOk_of_inv hp h
    exact inv_of_idleOk hp ⟨buffersOk_hostRxlen v hbuf, hidle⟩
  case start => exact fun i c ie f s hs h hp => inv_start hs (startOk_prologue hp h ie c)

end Sys2Proof.Machine
end

section
/-! PROOFS. The state and the host register port (10_state.md): every change of `PHASE` is an arc of the control-flow graph
(O48), the Connection changes only at a completion or a reset (O49), the word views of a segment (O10), the register map and
what a read returns and a write ignores (O7, O8, O13), and the reset (O14, O46). -/

namespace Sys2Proof.Machine

/-! ## Changes of `PHASE` (O48) -/

/-- Where a rule that starts in phase `p` may lead: the end of the command, or along an arc of the graph (10_state.md R49). -/
def Phase.Leads (p q : Phase) : Prop := q = .idle ∨ p.arc q = true

theorem leads_discard {p back : Phase} (h : p.arc back = true) (s : State) : p.Leads (discard back s).phase := by
  rcases discard_cases back s with ⟨-, e⟩ | ⟨-, e⟩ <;> rw [e]
  · exact .inl rfl
  · exact .inr h

theorem leads_issueRecv {p wait : Phase} (h : p.arc wait = true) (s : State) : p.Leads (issueRecv wait s).phase := by
  rcases issueRecv_cases wait s with ⟨-, e⟩ | ⟨-, e⟩ <;> rw [e]
  · exact .inl rfl
  · exact .inr h

theorem leads_sendRespond {p : Phase} {sent : State → State} (h : ∀ s, p.Leads (sent s).phase) (r : Word) (s : State) :
    p.Leads (sendRespond sent r s).phase := by
  rcases sendRespond_cases sent r s with ⟨-, e⟩ | ⟨-, e⟩ <;> rw [e]
  · exact .inl rfl
  · exact h s

theorem leads_recvRespond {p back : Phase} {acc : Segment → State → State} (hback : p.arc back = true)
    (hacc : ∀ d s, p.Leads (acc d s).phase) (m : Segment → State → Bool) (r : Word) (bs : List Byte) (s : State) :
    p.Leads (recvRespond back m acc r bs s).phase := by
  rcases recvRespond_cases back m acc r bs s with ⟨-, e⟩ | ⟨-, -, e⟩ | ⟨d, -, -, -, e⟩ | ⟨d, -, -, -, e⟩ <;> rw [e]
  · exact .inl rfl
  · exact leads_discard hback _
  · exact leads_discard hback _
  · exact hacc d _

/-- A step of the block waits, ends the command or follows an arc. -/
theorem blockStep_phase (s : State) : (blockStep s).phase = s.phase ∨ s.phase.Leads (blockStep s).phase := by
  rcases blockStep_cases s with e | ⟨c, hp, -, e⟩ | ⟨c, hp, -, e⟩ | ⟨r, hp, -, e⟩ | ⟨hp, e⟩ | ⟨r, bs, a, hp, -, e⟩ |
    ⟨c, hp, -, e⟩ | ⟨r, hp, -, e⟩ | ⟨hp, e⟩ | ⟨r, bs, a, hp, -, e⟩ | ⟨c, hp, -, e⟩ | ⟨r, hp, -, e⟩ | ⟨hp, e⟩ |
    ⟨r, bs, a, hp, -, e⟩ | ⟨ok, x, hp, -, e⟩
  · exact .inl (congrArg State.phase e)
  all_goals
    right
    rw [e, hp, endStep_phase]
  · exact .inl rfl
  · exact .inr rfl
  · exact leads_sendRespond (fun _ => .inr rfl) r _
  · exact leads_issueRecv rfl s
  · exact leads_recvRespond rfl (fun _ _ => .inr rfl) _ r bs _
  · exact .inr rfl
  · exact leads_sendRespond (fun _ => .inl rfl) r _
  · exact leads_issueRecv rfl s
  · exact leads_recvRespond rfl (fun _ _ => .inr rfl) _ r bs _
  · exact .inr rfl
  · exact leads_sendRespond (fun _ => .inr rfl) r _
  · exact leads_issueRecv rfl s
  · exact leads_recvRespond rfl (fun _ _ => .inr rfl) _ r bs _
  · rcases sessRespond_cases ok x (clearPort s) with ⟨-, e⟩ | ⟨-, e⟩ <;> rw [e] <;> exact .inl rfl

/-- A start rule ends its command at once or follows an arc out of `IDLE`. -/
theorem leads_start {i : Instr} {c : BitVec 4} {ie : Bool} {f : State → State} (h : startOf i = some (c, ie, f))
    (s : State) : Phase.idle.Leads (f s).phase := by
  rcases startOf_cases h with ⟨-, rfl⟩ | ⟨-, rfl⟩ | ⟨-, rfl⟩ | ⟨-, rfl⟩ | ⟨-, rfl⟩ | ⟨e, rfl⟩
  · unfold startEncode; split <;> exact .inl rfl
  · unfold startDecode; split <;> exact .inl rfl
  · unfold startCsum
    split
    · exact .inl rfl
    · exact .inr rfl
  · exact .inr rfl
  · exact .inr rfl
  · exact .inl rfl

/-- A `CTRL` write that decodes to `SRST` is a reset. -/
theorem resets_srst {v : Word} (h : decodeWord v = .srst) : (Turn.write ctrlAddr v).resets = true := by
  simp [Turn.resets, decode, h]

/-- What a turn `u` may do to `PHASE`: nothing, an arc out of `IDLE` at a `CTRL` write, an arc or the end of the command as
a step of the block, or a reset. -/
def PhaseMove (u : Turn) (s t : State) : Prop :=
  t.phase = s.phase ∨ (s.phase = .idle ∧ s.phase.arc t.phase = true ∧ ∃ w, u = .write ctrlAddr w) ∨
    (u = .block ∧ s.phase.Leads t.phase) ∨ (t.phase = .idle ∧ u.resets = true)

theorem step_phase {s t : State} (hst : step s = .next t) : PhaseMove (nextTurn s) s t := by
  refine step_relates PhaseMove ?read ?write ?busy ?start ?srst ?set ?wait ?respond ?deadline ?isn ?reset ?block hst
  case write =>
    exact fun a v s _ =>
      .inl (hostWrite_keeps a v s State.phase (fun _ _ => rfl) (fun _ _ => rfl) fun _ _ _ _ _ _ _ _ _ => rfl)
  case start =>
    intro v c ie f s hs hp
    rcases leads_start hs (prologue { s with ie := ie, cmd := c }) with e | e
    · exact .inl (e.trans hp.symm)
    · exact .inr (.inl ⟨hp, hp ▸ e, v, rfl⟩)
  case srst => exact fun v s h => .inr (.inr (.inr ⟨rfl, resets_srst h⟩))
  case wait => exact fun s => .inl (pollDone_keeps s State.phase fun _ _ _ => rfl)
  case respond => exact fun r s => .inl (deliver_keeps r s State.phase fun _ _ => rfl)
  case reset => exact fun s => .inr (.inr (.inr ⟨rfl, rfl⟩))
  case block => exact fun s => (blockStep_phase s).imp_right fun h => .inr (.inl ⟨rfl, h⟩)
  all_goals intros; exact .inl rfl

/-- Settles O48, by the agent that moves: a start rule leaves `IDLE` along an arc, the block's step follows an arc or ends the
command, a reset leads to `IDLE`, and no other turn writes `PHASE`. -/
theorem phaseChangesAreArcs : Obligations.PhaseChangesAreArcs :=
  fun _ _ hst hne => (step_phase hst).resolve_left hne

/-! ## Changes of the Connection (O49) -/

/-- The data of the Connection (10_state.md R40). -/
def State.connData (s : State) : Word × Word × Session := (s.connLocalSeq, s.connRemoteAcked, s.connSession)

/-- From `s` to `t` the data of the Connection stays and the Connection does not become valid. -/
def ConnKept (s t : State) : Prop := t.connData = s.connData ∧ (t.connValid = true → s.connValid = true)

/-- From `s` to `t` a handshake ends without error in ESTABLISHED (41_handshake_active.md R214, 42_handshake_passive.md
R256). -/
def Completes (s t : State) : Prop :=
  (s.phase = .aAckSendWait ∨ s.phase = .pSessWait) ∧
    t.phase = .idle ∧ t.done = true ∧ t.err = .none ∧ t.connState = .established ∧ t.connValid = true

/-- What changes neither the data nor the validity. -/
theorem connKept_of_eq {s t : State} (h : (t.connData, t.connValid) = (s.connData, s.connValid)) : ConnKept s t := by
  obtain ⟨hdata, hvalid⟩ := Prod.mk.inj h
  exact ⟨hdata, fun e => hvalid ▸ e⟩

theorem connKept_refl (s : State) : ConnKept s s := connKept_of_eq rfl

theorem connKept_fail (e : ErrKind) (s : State) : ConnKept s (fail e s) := ⟨rfl, fun h => by cases h⟩

theorem connKept_discard (back : Phase) (s : State) : ConnKept s (discard back s) := by
  rcases discard_cases back s with ⟨-, e⟩ | ⟨-, e⟩ <;> rw [e]
  · exact connKept_fail _ { s with discards := nextDiscards s.discards }
  · exact connKept_of_eq rfl

theorem connKept_issueRecv (wait : Phase) (s : State) : ConnKept s (issueRecv wait s) := by
  rcases issueRecv_cases wait s with ⟨-, e⟩ | ⟨-, e⟩ <;> rw [e]
  · exact connKept_fail _ s
  · exact connKept_of_eq rfl

theorem connKept_sendRespond {sent : State → State} (h : ∀ s, ConnKept s (sent s)) (r : Word) (s : State) :
    ConnKept s (sendRespond sent r s) := by
  rcases sendRespond_cases sent r s with ⟨-, e⟩ | ⟨-, e⟩ <;> rw [e]
  · exact connKept_fail _ s
  · exact h s

theorem connKept_recvRespond {acc : Segment → State → State} (hacc : ∀ d s, ConnKept s (acc d s)) (back : Phase)
    (m : Segment → State → Bool) (r : Word) (bs : List Byte) (s : State) : ConnKept s (recvRespond back m acc r bs s) := by
  rcases recvRespond_cases back m acc r bs s with ⟨-, e⟩ | ⟨-, -, e⟩ | ⟨d, -, -, -, e⟩ | ⟨d, -, -, -, e⟩ <;> rw [e]
  · exact connKept_fail _ s
  · exact connKept_discard back { rxStore r bs s with malformedSeen := true }
  · exact connKept_discard back (loadRx d (rxStore r bs s))
  · exact hacc d (loadRx d (rxStore r bs s))

/-- A step of the block keeps the Connection or completes a handshake. -/
theorem blockStep_conn (s : State) : ConnKept s (blockStep s) ∨ Completes s (blockStep s) := by
  rcases blockStep_cases s with e | ⟨c, -, -, e⟩ | ⟨c, -, -, e⟩ | ⟨r, -, -, e⟩ | ⟨-, e⟩ | ⟨r, bs, a, -, -, e⟩ |
    ⟨c, -, -, e⟩ | ⟨r, hp, -, e⟩ | ⟨-, e⟩ | ⟨r, bs, a, -, -, e⟩ | ⟨c, -, -, e⟩ | ⟨r, -, -, e⟩ | ⟨-, e⟩ |
    ⟨r, bs, a, -, -, e⟩ | ⟨ok, x, hp, -, e⟩ <;> rw [e]
  · exact .inl (connKept_refl s)
  · exact .inl (connKept_of_eq rfl)
  · exact .inl (connKept_of_eq rfl)
  · exact .inl (connKept_sendRespond (sent := synSent) (fun _ => connKept_of_eq rfl) r (clearPort s))
  · exact .inl (connKept_issueRecv _ s)
  · exact .inl (connKept_recvRespond (acc := acceptSynack) (fun _ _ => connKept_of_eq rfl) _ _ r bs (clearPort s))
  · exact .inl (connKept_of_eq rfl)
  · rcases sendRespond_cases completeActive r (clearPort s) with ⟨-, e⟩ | ⟨-, e⟩ <;> rw [e]
    · exact .inl (connKept_fail .sendFailure (clearPort s))
    · exact .inr ⟨.inl hp, rfl, rfl, rfl, rfl, rfl⟩
  · exact .inl (connKept_issueRecv _ s)
  · exact .inl (connKept_recvRespond (acc := acceptSyn a) (fun _ _ => connKept_of_eq rfl) _ _ r bs (clearPort s))
  · exact .inl (connKept_of_eq rfl)
  · exact .inl (connKept_sendRespond (sent := synackSent) (fun _ => connKept_of_eq rfl) r (clearPort s))
  · exact .inl (connKept_issueRecv _ s)
  · exact .inl (connKept_recvRespond (acc := acceptAck) (fun _ _ => connKept_of_eq rfl) _ _ r bs (clearPort s))
  · rcases sessRespond_cases ok x (clearPort s) with ⟨-, e⟩ | ⟨-, e⟩ <;> rw [e]
    · exact .inr ⟨.inr hp, rfl, rfl, rfl, rfl, rfl⟩
    · exact .inl (connKept_fail .sessionOpenFailure (clearPort s))

/-- No start rule makes a Connection. -/
theorem connKept_start {i : Instr} {c : BitVec 4} {ie : Bool} {f : State → State} (h : startOf i = some (c, ie, f))
    (s : State) : ConnKept s (f s) := by
  rcases startOf_cases h with ⟨-, rfl⟩ | ⟨-, rfl⟩ | ⟨-, rfl⟩ | ⟨-, rfl⟩ | ⟨-, rfl⟩ | ⟨e, rfl⟩
  · unfold startEncode; split <;> exact connKept_of_eq rfl
  · unfold startDecode; split <;> exact connKept_of_eq rfl
  · unfold startCsum; split <;> exact connKept_of_eq rfl
  · exact ⟨rfl, fun h => by cases h⟩
  · exact ⟨rfl, fun h => by cases h⟩
  · exact connKept_of_eq rfl

/-- What a turn `u` may do to the Connection: nothing but end its validity, a completion as a step of the block, or a
reset. -/
def ConnMove (u : Turn) (s t : State) : Prop :=
  ConnKept s t ∨ (u = .block ∧ Completes s t) ∨ (u.resets = true ∧ t.connValid = false)

theorem step_conn {s t : State} (hst : step s = .next t) : ConnMove (nextTurn s) s t := by
  refine step_relates ConnMove ?read ?write ?busy ?start ?srst ?set ?wait ?respond ?deadline ?isn ?reset ?block hst
  case write =>
    exact fun a v s _ => .inl (connKept_of_eq (hostWrite_keeps a v s (fun s => (s.connData, s.connValid))
      (fun _ _ => rfl) (fun _ _ => rfl) fun _ _ _ _ _ _ _ _ _ => rfl))
  case start => exact fun v c ie f s hs _ => .inl (connKept_start hs (prologue { s with ie := ie, cmd := c }))
  case srst => exact fun v s h => .inr (.inr ⟨resets_srst h, rfl⟩)
  case wait =>
    exact fun s => .inl (connKept_of_eq (pollDone_keeps s (fun s => (s.connData, s.connValid)) fun _ _ _ => rfl))
  case respond =>
    exact fun r s => .inl (connKept_of_eq (deliver_keeps r s (fun s => (s.connData, s.connValid)) fun _ _ => rfl))
  case reset => exact fun s => .inr (.inr ⟨rfl, rfl⟩)
  case block => exact fun s => (blockStep_conn s).imp_right fun h => .inl ⟨rfl, h⟩
  all_goals intros; exact .inl (connKept_of_eq rfl)

/-- Settles O49: a step that keeps the Connection meets none of the premise's changes. -/
theorem connectionChangesOnlyAtCompletionOrReset : Obligations.ConnectionChangesOnlyAtCompletionOrReset := by
  intro s t hst hch
  refine (step_conn hst).resolve_left fun ⟨hdata, hvalid⟩ => ?_
  simp only [State.connData, Prod.mk.injEq] at hdata
  obtain ⟨hseq, hacked, hsess⟩ := hdata
  rcases hch with h | h | h | ⟨ht, hs⟩
  · exact h hseq
  · exact h hacked
  · exact h hsess
  · rw [hvalid ht] at hs; cases hs

/-! ## The word views of a segment (O10) -/

/-- A word in network byte order is two half words, the upper first (00_scope.md R13). -/
theorem be32_eq_be16 (b : List Byte) (o : Nat) : be32 b o = be16 b o ++ be16 b (o + 2) := by
  unfold be32 be16
  rw [BitVec.append_assoc, BitVec.cast_eq]

theorem be32_congr {b c : List Byte} {o p : Nat} (h : ∀ i < 4, byteAt b (o + i) = byteAt c (p + i)) :
    be32 b o = be32 c p := by
  rw [be32, show byteAt b o = byteAt c p from h 0 (by omega), h 1 (by omega), h 2 (by omega), h 3 (by omega), be32]

/-- An option byte after a write of the view at `j`. -/
theorem byteAt_setOptWord (opt : Vector Byte 40) (j : Nat) (v : Word) {o : Nat} (ho : o < 40) :
    byteAt (setOptWord opt j v).toList o =
      if j ≤ o ∧ o < j + 4 then byteAt (put32 v) (o - j) else byteAt opt.toList o := by
  simp [byteAt, setOptWord, List.getD_eq_getElem?_getD, ho]

/-- A word of the options reads back. -/
theorem be32_setOptWord_same (opt : Vector Byte 40) {j : Nat} (v : Word) (hj : j + 4 ≤ 40) :
    be32 (setOptWord opt j v).toList j = v := by
  refine (be32_congr (c := put32 v) (p := 0) fun i hi => ?_).trans (concat_bytes4 v)
  rw [byteAt_setOptWord _ _ _ (by omega), if_pos (by omega), Nat.add_sub_cancel_left, Nat.zero_add]

/-- A word of the options beside the written one is unchanged. -/
theorem be32_setOptWord_other (opt : Vector Byte 40) {j o : Nat} (v : Word) (ho : o + 4 ≤ 40)
    (h : o + 4 ≤ j ∨ j + 4 ≤ o) : be32 (setOptWord opt j v).toList o = be32 opt.toList o := by
  refine be32_congr fun i hi => ?_
  rw [byteAt_setOptWord _ _ _ (by omega), if_neg (by omega)]

/-- A view of the fixed part of a header shows a word of its twenty fixed bytes. -/
theorem viewWord_fixed (S : Segment) {k : Fin 15} (hk : k.val < 5) : viewWord S k = be32 (fixedBytes S) (4 * k.val) := by
  obtain ⟨k, _⟩ := k
  match k with
  | 0 => rw [be32_eq_be16]; exact (congrArg₂ (· ++ ·) (concat_bytes2 S.srcPort) (concat_bytes2 S.dstPort)).symm
  | 1 => exact (concat_bytes4 S.seq).symm
  | 2 => exact (concat_bytes4 S.ack).symm
  | 3 => rw [be32_eq_be16]; exact (congrArg (byte12 S ++ S.flags ++ ·) (concat_bytes2 S.window)).symm
  | 4 => rw [be32_eq_be16]; exact (congrArg₂ (· ++ ·) (concat_bytes2 S.checksum) (concat_bytes2 S.urgent)).symm
  | _ + 5 => simp at hk

/-- A view of the options shows a word of them. -/
theorem viewWord_opt (S : Segment) {k : Fin 15} (hk : 5 ≤ k.val) :
    viewWord S k = be32 S.opt.toList (4 * (k.val - 5)) := by
  unfold viewWord
  iterate 5 rw [if_neg (by omega)]
  rfl

/-- A write of a view of the options writes a word of them and no other field. -/
theorem setView_opt (S : Segment) {k : Fin 15} (v : Word) (hk : 5 ≤ k.val) :
    setView S k v = { S with opt := setOptWord S.opt (4 * (k.val - 5)) v } := by
  unfold setView
  iterate 5 rw [if_neg (by omega)]

/-- Below the end of the header a view is a word of the encoding (10_state.md R57, 30_encoding.md R120). -/
theorem viewWord_eq_be32 {S : Segment} {k : Fin 15} (hk : k.val < S.doff.toNat) :
    viewWord S k = be32 (encodeFn S) (4 * k.val) := by
  rcases Nat.lt_or_ge k.val 5 with h | h
  · rw [viewWord_fixed S h]
    exact be32_congr fun i hi => (byteAt_encodeFn_fixed S (by omega)).symm
  · rw [viewWord_opt S h]
    refine be32_congr fun i hi => ?_
    rw [show 4 * k.val + i = 20 + (4 * (k.val - 5) + i) by omega, byteAt_encodeFn_opt S (by omega) (by omega)]
    simp [byteAt, List.getD_eq_getElem?_getD, show 4 * (k.val - 5) + i < 40 by omega]

/-- A written view reads back. -/
theorem viewWord_setView_same (S : Segment) (k : Fin 15) (v : Word) : viewWord (setView S k v) k = v := by
  rcases Nat.lt_or_ge k.val 5 with h | h
  · obtain ⟨k, _⟩ := k
    match k with
    | 0 => exact concat_halves v
    | 1 => rfl
    | 2 => rfl
    | 3 => exact concat_word3 v
    | 4 => exact concat_halves v
    | _ + 5 => simp at h
  · rw [viewWord_opt _ h, setView_opt S v h]
    exact be32_setOptWord_same S.opt v (by omega)

/-- A write of a view leaves every other view unchanged. -/
theorem viewWord_setView_other (S : Segment) {k j : Fin 15} (v : Word) (hjk : j ≠ k) :
    viewWord (setView S k v) j = viewWord S j := by
  have hne : j.val ≠ k.val := Fin.val_ne_of_ne hjk
  rcases Nat.lt_or_ge k.val 5 with h | h
  · rcases k with ⟨_ | _ | _ | _ | _ | k, _⟩
    iterate 5 · simp [viewWord, setView, optWord, hne]
    · simp only at h; omega
  · rw [setView_opt S v h]
    rcases Nat.lt_or_ge j.val 5 with hj | hj
    · have hfix (o : Vector Byte 40) : fixedBytes { S with opt := o } = fixedBytes S := rfl
      rw [viewWord_fixed _ hj, viewWord_fixed _ hj, hfix]
    · rw [viewWord_opt _ hj, viewWord_opt _ hj]
      exact be32_setOptWord_other S.opt v (by omega) (by omega)

/-- Settles O10: the views of the fixed part and of the options, each by the bytes it shows. -/
theorem segmentViewsAreTheEncodedWords : Obligations.SegmentViewsAreTheEncodedWords :=
  ⟨fun _ _ _ hk => viewWord_eq_be32 hk, viewWord_setView_same, fun S _ _ v hjk => viewWord_setView_other S v hjk⟩

/-! ## The register map (O7) -/

theorem offset_of_regAt {a : BitVec 8} {r : Reg} (h : regAt a = some r) : r.offset = 4 * a.toNat := by
  unfold regAt at h
  iterate 24
    rcases ite_eq_iff.1 h with ⟨hn, e⟩ | ⟨-, h⟩
    · cases e; simp only [Reg.offset, Fin.val_ofNat]; omega
  cases h

/-- The table of offsets has no register twice: the register map finds each one at its place (10_state.md R55). -/
theorem regAt_offset (r : Reg) : regAt (BitVec.ofNat 8 (r.offset / 4)) = some r := by
  cases r
  case argAddr k | peerAddr k => revert k; decide
  case txseg k | rxseg k | txbuf k => revert k; decide
  case rxbuf k => revert k; decide
  all_goals rfl

theorem regAt_eq_some {a : BitVec 8} {r : Reg} : regAt a = some r ↔ r.offset = 4 * a.toNat := by
  refine ⟨offset_of_regAt, fun h => ?_⟩
  rw [← regAt_offset r, h, Nat.mul_div_cancel_left _ (by omega), BitVec.ofNat_toNat, BitVec.setWidth_eq]

/-- Settles O7: a register the block has, in its place. -/
theorem registerMapIsTheOffsetTable : Obligations.RegisterMapIsTheOffsetTable := fun _ _ _ => by
  rw [regOf_eq_some, regAt_eq_some, and_comm]

/-! ## What a read returns (O8) -/

/-- A read at the place of a register the block has returns its value. -/
theorem readAddr_of_offset {a : BitVec 8} {s : State} (r : Reg) (hm : r.mapped s.params = true)
    (h : r.offset = 4 * a.toNat) : readAddr a s = readReg r s := by
  rw [readAddr, regOf_eq_some.2 ⟨regAt_eq_some.2 h, hm⟩]

/-- A word address `base + k` in the register space. -/
theorem toNat_wordAddr (base k : Nat) (h : base + k < 256) :
    4 * (BitVec.ofNat 8 (base + k)).toNat = 4 * base + 4 * k := by
  rw [BitVec.toNat_ofNat, Nat.mod_eq_of_lt (by omega), Nat.mul_add]

/-- The four words of an address register, put together (10_state.md R55). -/
theorem concat_addrWords (a : Addr) : addrWord a 0 ++ addrWord a 1 ++ addrWord a 2 ++ addrWord a 3 = a := by
  unfold addrWord
  rw [BitVec.extractLsb'_append_extractLsb'_eq_extractLsb' (by rfl),
    BitVec.extractLsb'_append_extractLsb'_eq_extractLsb' (by rfl),
    BitVec.extractLsb'_append_extractLsb'_eq_extractLsb' (by rfl)]
  exact BitVec.extractLsb'_eq_self

/-- A buffer word with its four bytes written, whatever the free value is. -/
theorem bufWord_written {m : Memory} {k : Nat} (tick : Nat) {b0 b1 b2 b3 : Byte} (h0 : Memory.read m (4 * k) = some b0)
    (h1 : Memory.read m (4 * k + 1) = some b1) (h2 : Memory.read m (4 * k + 2) = some b2)
    (h3 : Memory.read m (4 * k + 3) = some b3) : bufWord m k tick = b0 ++ b1 ++ b2 ++ b3 := by
  simp [bufWord, Memory.readWord, h0, h1, h2, h3]

theorem statusWord_eq (s : State) :
    s.statusWord = 0#13 ++ BitVec.ofBool s.wrWhileBusy ++ BitVec.ofBool s.cmdOverrun ++ BitVec.ofBool s.malformedSeen
      ++ 0#5 ++ s.failState.code ++ s.err.code ++ 0#2 ++ BitVec.ofBool s.done
      ++ BitVec.ofBool (decide (s.phase ≠ .idle)) := by
  rw [show decide (s.phase ≠ .idle) = s.busy from Bool.eq_iff_iff.2 (by simp [busy_iff])]
  rfl

/-- Settles O8: each register is read at its place in the table of offsets, and its word is that of its layout. -/
theorem readsReturnTheRegisterLayouts : Obligations.ReadsReturnTheRegisterLayouts := by
  intro s
  have readAt {a : BitVec 8} (r : Reg) (hm : r.mapped s.params = true) (h : r.offset = 4 * a.toNat) :=
    readAddr_of_offset r hm h
  refine ⟨readAt .id rfl rfl, readAt .ctrl rfl rfl, (readAt .status rfl rfl).trans (statusWord_eq s),
    readAt .phase rfl rfl, readAt .counters rfl rfl, readAt .argSession rfl rfl, readAt .argPort rfl rfl,
    readAt .argLport rfl rfl, readAt .argBudget rfl rfl, ?argAddr, readAt .connStatus rfl rfl,
    readAt .connLocalSeq rfl rfl, readAt .connRemoteAcked rfl rfl, readAt .connSession rfl rfl, readAt .isnReg rfl rfl,
    readAt .peerIsn rfl rfl, readAt .peerPort rfl rfl, ?peerAddr, fun k => ⟨?txseg, ?rxseg⟩, readAt .txlen rfl rfl,
    readAt .rxlen rfl rfl, fun k b0 b1 b2 b3 h0 h1 h2 h3 => ?txbuf, fun k b0 b1 b2 b3 hk h0 h1 h2 h3 => ?rxbuf⟩
  case argAddr =>
    rw [readAt (.argAddr 0) rfl rfl, readAt (.argAddr 1) rfl rfl,
      readAt (.argAddr 2) rfl rfl, readAt (.argAddr 3) rfl rfl]
    exact concat_addrWords s.argAddr
  case peerAddr =>
    rw [readAt (.peerAddr 0) rfl rfl, readAt (.peerAddr 1) rfl rfl,
      readAt (.peerAddr 2) rfl rfl, readAt (.peerAddr 3) rfl rfl]
    exact concat_addrWords s.peerAddr
  case txseg => exact readAt (.txseg k) rfl (toNat_wordAddr 32 k (by omega)).symm
  case rxseg => exact readAt (.rxseg k) rfl (toNat_wordAddr 48 k (by omega)).symm
  case txbuf =>
    exact (readAt (.txbuf k) rfl (toNat_wordAddr 128 k (by omega)).symm).trans
      (bufWord_written s.tick h0 h1 h2 h3)
  case rxbuf =>
    exact (readAt (.rxbuf k) (decide_eq_true hk) (toNat_wordAddr 192 k (by omega)).symm).trans
      (bufWord_written s.tick h0 h1 h2 h3)

/-! ## Writes the block ignores (O13) -/

/-- The registers a host write can change (10_state.md R55, R56). -/
def Reg.writable : Reg → Bool
  | .status | .argSession | .argPort | .argLport | .argBudget | .argAddr _ | .txseg _ | .rxlen | .rxbuf _ => true
  | .id | .ctrl | .phase | .counters | .connStatus | .connLocalSeq | .connRemoteAcked | .connSession
  | .isnReg | .peerIsn | .peerPort | .peerAddr _ | .rxseg _ | .txlen | .txbuf _ => false

theorem writeReg_readOnly {r : Reg} (h : r.writable = false) (v : Word) (s : State) : writeReg r v s = s := by
  cases r
  case status | argSession | argPort | argLport | argBudget | argAddr | txseg | rxlen | rxbuf => cases h
  all_goals rfl

/-- The word addresses of the writable registers. -/
theorem writable_offset {P : Params} {a : BitVec 8} {r : Reg} (hw : r.writable = true) (hm : r.mapped P = true)
    (h : r.offset = 4 * a.toNat) :
    a.toNat = 2 ∨ 5 ≤ a.toNat ∧ a.toNat ≤ 12 ∨ 32 ≤ a.toNat ∧ a.toNat ≤ 46 ∨ a.toNat = 65 ∨
      192 ≤ a.toNat ∧ 4 * a.toNat < 0x300 + P.rxBufBytes := by
  cases r <;> simp only [Reg.writable, reduceCtorEq] at hw <;> simp only [Reg.offset] at h
  case rxbuf k => simp only [Reg.mapped, decide_eq_true_eq] at hm; omega
  all_goals omega

/-- Settles O13: at such an address stands no register or a read-only one. -/
theorem otherOffsetsIgnoreWrites : Obligations.OtherOffsetsIgnoreWrites := by
  intro s a v hout
  constructor
  · have ha : a ≠ ctrlAddr := fun e => hout (.inl (congrArg BitVec.toNat e))
    have hkeep : hostWrite a v s = s := by
      unfold hostWrite
      cases hr : regOf s.params a with
      | none => rfl
      | some r =>
        obtain ⟨hat, hm⟩ := regOf_eq_some.1 hr
        refine writeReg_readOnly (Bool.eq_false_iff.2 fun hw => ?_) v s
        exact hout (.inr (writable_offset hw hm (offset_of_regAt hat)))
    simp only [takeWrite, decode, if_neg ha, hkeep]
  · intro hnone
    unfold readAddr
    cases hr : regOf s.params a with
    | none => rfl
    | some r =>
      obtain ⟨hat, hm⟩ := regOf_eq_some.1 hr
      exact absurd (offset_of_regAt hat) (hnone r hm)

/-! ## Reset (O14, O46) -/

/-- The block's registers hold their reset values, whatever the environment, the host and the model keep beside them
(10_state.md R60). -/
theorem atReset_resetOf (P : Params) (dl : Bool) (rd : Word) (sch : List Turn) (tk : Nat) :
    ({ State.resetOf P with deadline := dl, readData := rd, schedule := sch, tick := tk } : State).AtReset := by
  unfold State.AtReset
  have hstatus : State.reset.statusWord = 0 := by decide
  refine ⟨rfl, rfl, rfl, rfl, hstatus, rfl, rfl, rfl, rfl, rfl, rfl, rfl, rfl, rfl, rfl, rfl, rfl, rfl, rfl, rfl, rfl, rfl, rfl,
    rfl, rfl, rfl, read_nil, read_nil, rfl⟩

theorem atReset_resetBlock (s : State) : (resetBlock s).AtReset := atReset_resetOf _ _ _ _ _

/-- Settles O14: both resets are the block's one reset. -/
theorem resetLeavesTheResetValues : Obligations.ResetLeavesTheResetValues :=
  ⟨fun P => atReset_resetOf P false 0 [] 0,
    fun s => ⟨⟨_, rfl, atReset_resetBlock s⟩, _, rfl, atReset_resetBlock s⟩⟩

/-- Settles O46: the reset state is idle, with empty buffers and no Connection. -/
theorem invAtReset : Obligations.InvAtReset := inv_resetOf

end Sys2Proof.Machine
end

section
/-! PROOFS. The memory and its agents (20_memory.md): reads and polls of the host (O9), host writes of `STATUS` (O11), of the
idle-only registers (O12) and while a command runs (O18, O53), the step that takes a `CTRL` write (O19), the frame of the
commands that store nothing (O27), and the ports (O43, O44, O54). -/

namespace Sys2Proof.Machine

variable {s : State}

/-! ## The step of a scheduled turn (O9, O19) -/

/-- The agent whose turn stands first moves (20_memory.md R100). -/
theorem step_of_schedule {t : Turn} {rest : List Turn} (h : s.schedule = t :: rest) :
    step s = takeTurn t { s with schedule := rest, tick := s.tick + 1 } := by
  rw [step_eq, nextTurn, fetched, h]
  rfl

/-- The place of `DONE` in the `STATUS` word (10_state.md R52). -/
theorem statusWord_done (s : State) : s.statusWord.getLsbD 1 = s.done := by
  refine (BitVec.getLsbD_append (n := 31) (m := 1)).trans ?_
  refine (BitVec.getLsbD_append (n := 30) (m := 1)).trans ?_
  simp

/-- A poll of `wait`: the value read, and the turns that come after it. -/
theorem pollDone_eq (s : State) :
    pollDone s =
      { s with
        schedule := if s.done then s.schedule else pollAgain s.schedule
        readData := s.statusWord } := by
  have hread : hostRead 2 s = { s with readData := s.statusWord } := rfl
  simp only [pollDone, hread, statusWord_done]
  cases s.done <;> rfl

/-- A poll that reads `DONE` as 0 puts the loop behind one turn of another agent, and reorders no agent's turns (log
entry 8). -/
theorem pollAgain_order (turns : List Turn) :
    (pollAgain turns).filter Turn.isHost = .wait :: turns.filter Turn.isHost ∧
    (pollAgain turns).filter (fun t => !t.isHost) =
      (if turns.filter (fun t => !t.isHost) = [] then [.block] else turns.filter fun t => !t.isHost) ∧
    ∃ t later, pollAgain turns = t :: .wait :: later ∧ t.isHost = false := by
  rcases hn : nextOther turns with ⟨before, u, after⟩
  obtain ⟨hbefore, hu, hhost, hother⟩ := nextOther_spec hn
  have hwait : Turn.wait.isHost = true := rfl
  have hagain : pollAgain turns = u :: .wait :: (before ++ after) := by rw [pollAgain, hn]; rfl
  refine ⟨?_, ?_, u, before ++ after, hagain, hu⟩
  · rw [hagain, List.filter_cons_of_neg (by simp [hu]), List.filter_cons_of_pos hwait, hhost]
  · rw [hagain, ← hother, List.filter_cons_of_pos (by simp [hu]), List.filter_cons_of_neg (by simp [hwait]),
      List.filter_append, hbefore, List.nil_append]

/-- Settles O9: a read writes `readData` alone, and a poll the coming turns beside it. -/
theorem readsHaveNoSideEffect : Obligations.ReadsHaveNoSideEffect := by
  refine ⟨fun s a rest h => step_of_schedule h, fun s rest h => ?_⟩
  refine ⟨if s.done then rest else pollAgain rest, ?_, fun hd => if_pos hd, fun hd => ?_⟩
  · rw [step_of_schedule h, takeTurn, pollDone_eq]
    rfl
  · rw [if_neg (by simp [hd])]
    exact pollAgain_order rest

theorem decode_of_decodeTableWord {nbits w : Nat} {i : Instr} (h : decodeTableWord nbits w = some i) :
    decode ctrlAddr (BitVec.ofNat 32 w) = .ok i := by
  unfold decodeTableWord at h
  split at h
  · split at h
    · next j hj => cases h; exact hj
    · cases h
  · cases h

theorem takeWrite_of_decode {a : BitVec 8} {v : Word} {i : Instr} (h : decode a v = .ok i) (s : State) :
    takeWrite a v s = exec i s := by
  rw [takeWrite, h]

/-- Settles O19: the turn is taken, and the write is of the instruction its word decodes to. -/
theorem stepRunsTheDecodedInstruction : Obligations.StepRunsTheDecodedInstruction := by
  constructor
  · intro s rest w i hsch hdec _
    rw [step_of_schedule hsch]
    exact takeWrite_of_decode hdec _
  · intro s w i hdec
    rw [step_of_schedule (s := s.withFetchWord 32 w) (rest := s.schedule) rfl]
    exact takeWrite_of_decode (decode_of_decodeTableWord hdec) _

/-! ## Writes of the registers (O11, O12) -/

/-- A write at the place of a writable register the block has writes it. -/
theorem takeWrite_of_offset {a : BitVec 8} {r : Reg} (hw : r.writable = true) (hm : r.mapped s.params = true)
    (h : r.offset = 4 * a.toNat) (v : Word) : takeWrite a v s = .next (writeReg r v s) := by
  have hreg : regAt a = some r := regAt_eq_some.2 h
  have ha : a ≠ ctrlAddr := by
    rintro rfl
    cases hreg
    cases hw
  simp only [takeWrite, decode, if_neg ha, hostWrite, regOf_eq_some.2 ⟨hreg, hm⟩]

/-- The bits of a word that a `STATUS` write can clear, in the fields of the `STATUS` word (20_memory.md R83). -/
theorem and_w1cMask (v : Word) :
    v &&& 0x00070002 =
      0#13 ++ BitVec.ofBool (v.getLsbD 18) ++ BitVec.ofBool (v.getLsbD 17) ++ BitVec.ofBool (v.getLsbD 16)
        ++ 0#5 ++ 0#3 ++ 0#4 ++ 0#2 ++ BitVec.ofBool (v.getLsbD 1) ++ 0#1 := by
  refine BitVec.eq_of_getLsbD_eq fun i hi => ?_
  rw [BitVec.getLsbD_and]
  simp only [BitVec.getLsbD_append, BitVec.getLsbD_ofBool, BitVec.getLsbD_zero]
  interval_cases i <;> simp

/-- Bits are cleared field by field. -/
theorem append_clear {n m : Nat} {x y z : BitVec n} {a b c : BitVec m} (hz : z = x &&& ~~~y) (hc : c = a &&& ~~~b) :
    z ++ c = (x ++ a) &&& ~~~(y ++ b) := by
  rw [hz, hc, BitVec.not_append, BitVec.and_append]

theorem ofBool_clear (b c : Bool) : BitVec.ofBool (b && !c) = BitVec.ofBool b &&& ~~~BitVec.ofBool c := by
  cases b <;> cases c <;> rfl

theorem statusWord_writeStatus (v : Word) (s : State) :
    (writeStatus v s).statusWord = s.statusWord &&& ~~~(v &&& 0x00070002) := by
  have kept {n : Nat} (x : BitVec n) : x = x &&& ~~~0#n := by simp
  have cleared := ofBool_clear
  have hwr := append_clear (kept 0#13) (cleared s.wrWhileBusy (v.getLsbD 18))
  have hflags := append_clear (append_clear hwr (cleared s.cmdOverrun (v.getLsbD 17)))
    (cleared s.malformedSeen (v.getLsbD 16))
  have herr := append_clear (append_clear (append_clear hflags (kept 0#5)) (kept s.failState.code)) (kept s.err.code)
  have hdone := append_clear (append_clear herr (kept 0#2)) (cleared s.done (v.getLsbD 1))
  rw [and_w1cMask]
  exact append_clear hdone (kept (BitVec.ofBool s.busy))

/-- Settles O11: `STATUS` stands at word address 2. -/
theorem statusWriteClearsTheBitsWrittenAsOne : Obligations.StatusWriteClearsTheBitsWrittenAsOne :=
  fun s v => ⟨_, takeWrite_of_offset (r := .status) rfl rfl rfl v, rfl, statusWord_writeStatus v s⟩

/-- While busy, every writable register but `STATUS` refuses a write (20_memory.md R84). -/
theorem writeReg_busy {r : Reg} (hw : r.writable = true) (hr : r ≠ .status) (hp : s.phase ≠ .idle) (v : Word) :
    writeReg r v s = { s with wrWhileBusy := true } := by
  have hb : s.busy = true := (busy_iff s).2 hp
  cases r
  case status => exact absurd rfl hr
  case argSession | argPort | argLport | argBudget | argAddr | txseg | rxlen | rxbuf => exact if_pos hb
  all_goals cases hw

/-- The registers at the idle-only addresses. -/
theorem exists_idleOnly {P : Params} {a : BitVec 8}
    (h : 5 ≤ a.toNat ∧ a.toNat ≤ 12 ∨ 32 ≤ a.toNat ∧ a.toNat ≤ 46 ∨ a.toNat = 65 ∨
      192 ≤ a.toNat ∧ 4 * a.toNat < 0x300 + P.rxBufBytes) :
    ∃ r : Reg, r.writable = true ∧ r ≠ .status ∧ r.mapped P = true ∧ r.offset = 4 * a.toNat := by
  rcases h with ⟨hlo, hhi⟩ | ⟨hlo, hhi⟩ | h | ⟨hlo, hhi⟩
  · obtain h | h | h | h | h : a.toNat = 5 ∨ a.toNat = 6 ∨ a.toNat = 7 ∨ a.toNat = 8 ∨ 9 ≤ a.toNat := by omega
    · exact ⟨.argSession, rfl, nofun, rfl, by rw [h]; rfl⟩
    · exact ⟨.argPort, rfl, nofun, rfl, by rw [h]; rfl⟩
    · exact ⟨.argLport, rfl, nofun, rfl, by rw [h]; rfl⟩
    · exact ⟨.argBudget, rfl, nofun, rfl, by rw [h]; rfl⟩
    · exact ⟨.argAddr ⟨a.toNat - 9, by omega⟩, rfl, nofun, rfl, by simp only [Reg.offset]; omega⟩
  · exact ⟨.txseg ⟨a.toNat - 32, by omega⟩, rfl, nofun, rfl, by simp only [Reg.offset]; omega⟩
  · exact ⟨.rxlen, rfl, nofun, rfl, by rw [h]; rfl⟩
  · have hcap := P.rxCapacity.property.1
    have ha := a.isLt
    refine ⟨.rxbuf ⟨a.toNat - 192, by omega⟩, rfl, nofun, decide_eq_true ?_, by simp only [Reg.offset]; omega⟩
    simp only [Params.rxBufBytes] at hhi ⊢
    omega

/-- An address with one of its words replaced: the bits above, the word and the bits below (10_state.md R55). -/
theorem setAddrWord_eq (a : Addr) (v : Word) :
    setAddrWord a 0 v = v ++ a.extractLsb' 0 96 ∧
    setAddrWord a 1 v = a.extractLsb' 96 32 ++ v ++ a.extractLsb' 0 64 ∧
    setAddrWord a 2 v = a.extractLsb' 64 64 ++ v ++ a.extractLsb' 0 32 ∧
    setAddrWord a 3 v = a.extractLsb' 32 96 ++ v := by
  have low2 : addrWord a 2 ++ addrWord a 3 = a.extractLsb' 0 64 :=
    BitVec.extractLsb'_append_extractLsb'_eq_extractLsb' rfl
  have low3 : addrWord a 1 ++ a.extractLsb' 0 64 = a.extractLsb' 0 96 :=
    BitVec.extractLsb'_append_extractLsb'_eq_extractLsb' rfl
  have high2 : addrWord a 0 ++ addrWord a 1 = a.extractLsb' 64 64 :=
    BitVec.extractLsb'_append_extractLsb'_eq_extractLsb' rfl
  have high3 : a.extractLsb' 64 64 ++ addrWord a 2 = a.extractLsb' 32 96 :=
    BitVec.extractLsb'_append_extractLsb'_eq_extractLsb' rfl
  refine ⟨?_, ?_, ?_, ?_⟩
  · change v ++ addrWord a 1 ++ addrWord a 2 ++ addrWord a 3 = v ++ a.extractLsb' 0 96
    rw [← low3, ← low2, BitVec.append_assoc, BitVec.cast_eq, BitVec.append_assoc, BitVec.cast_eq]
  · change addrWord a 0 ++ v ++ addrWord a 2 ++ addrWord a 3 = addrWord a 0 ++ v ++ a.extractLsb' 0 64
    rw [← low2, BitVec.append_assoc, BitVec.cast_eq]
  · change addrWord a 0 ++ addrWord a 1 ++ v ++ addrWord a 3 = a.extractLsb' 64 64 ++ v ++ addrWord a 3
    rw [high2]
  · change addrWord a 0 ++ addrWord a 1 ++ addrWord a 2 ++ v = a.extractLsb' 32 96 ++ v
    rw [high2, high3]

/-- The four bytes of a written word stand at its offsets, the most significant first, and no other byte is written. -/
theorem read_writeBytes_put32 (m : Memory) (a : Nat) (v : Word) :
    Memory.read (Memory.writeBytes m a (put32 v)) a = some (v.extractLsb' 24 8) ∧
    Memory.read (Memory.writeBytes m a (put32 v)) (a + 1) = some (v.extractLsb' 16 8) ∧
    Memory.read (Memory.writeBytes m a (put32 v)) (a + 2) = some (v.extractLsb' 8 8) ∧
    Memory.read (Memory.writeBytes m a (put32 v)) (a + 3) = some (v.extractLsb' 0 8) ∧
    ∀ o, o < a ∨ a + 4 ≤ o → Memory.read (Memory.writeBytes m a (put32 v)) o = Memory.read m o := by
  have hlen : (put32 v).length = 4 := rfl
  have hin (i : Nat) (hi : i < 4) : Memory.read (Memory.writeBytes m a (put32 v)) (a + i) = (put32 v)[i]? := by
    rw [read_writeBytes, dif_pos ⟨Nat.le_add_right a i, by omega⟩]
    simp [hlen, hi]
  refine ⟨hin 0 (by omega), hin 1 (by omega), hin 2 (by omega), hin 3 (by omega), fun o ho => ?_⟩
  rw [read_writeBytes, dif_neg (by omega)]

/-- Settles O12: while busy the register at each such address refuses the write; while idle it stores at its place. -/
theorem idleOnlyRegistersAreWrittenOnlyWhileIdle : Obligations.IdleOnlyRegistersAreWrittenOnlyWhileIdle := by
  constructor
  · intro s a v hp ha
    obtain ⟨r, hw, hr, hm, ho⟩ := exists_idleOnly ha
    rw [takeWrite_of_offset hw hm ho, writeReg_busy hw hr hp]
  · intro s v hp
    have hidle : ¬s.busy = true := by simp [State.busy, hp]
    have store {a : BitVec 8} {t : State} (r : Reg) (hw : r.writable = true) (hm : r.mapped s.params = true)
        (ho : r.offset = 4 * a.toNat) (ht : writeReg r v s = t) : takeWrite a v s = .next t :=
      (takeWrite_of_offset hw hm ho v).trans (congrArg _ ht)
    obtain ⟨h0, h1, h2, h3⟩ := setAddrWord_eq s.argAddr v
    rw [← h0, ← h1, ← h2, ← h3]
    refine ⟨store .argSession rfl rfl rfl (if_neg hidle), store .argPort rfl rfl rfl (if_neg hidle),
      store .argLport rfl rfl rfl (if_neg hidle), store .argBudget rfl rfl rfl (if_neg hidle),
      store (.argAddr 0) rfl rfl rfl (if_neg hidle), store (.argAddr 1) rfl rfl rfl (if_neg hidle),
      store (.argAddr 2) rfl rfl rfl (if_neg hidle), store (.argAddr 3) rfl rfl rfl (if_neg hidle),
      fun k => ⟨setView s.txseg k v, ?txseg, viewWord_setView_same _ _ _, fun j => viewWord_setView_other _ v⟩,
      store .rxlen rfl rfl rfl (if_neg hidle),
      fun k hk => ⟨Memory.writeBytes s.rxbuf (4 * k.val) (put32 v), ?rxbuf, read_writeBytes_put32 _ _ v⟩⟩
    case txseg => exact store (.txseg k) rfl rfl (toNat_wordAddr 32 k (by omega)).symm (if_neg hidle)
    case rxbuf =>
      exact store (.rxbuf k) rfl (decide_eq_true hk) (toNat_wordAddr 192 k (by omega)).symm (if_neg hidle)

/-! ## Writes while a command runs (O18, O53) -/

/-- A command is issued with its code, its `IE` bit and its start rule. -/
theorem exec_of_startOf {i : Instr} {c : BitVec 4} {ie : Bool} {f : State → State} (h : startOf i = some (c, ie, f))
    (s : State) : exec i s = .next (issue c ie f s) := by
  rcases exec_cases i s with ⟨c', ie', f', h', e⟩ | ⟨rfl, -⟩ | ⟨c', ie', rfl, -⟩
  · cases h.symm.trans h'
    exact e
  · cases h
  · cases h

/-- A command issued while one runs is refused (20_memory.md R82). -/
theorem exec_busy {i : Instr} {c : BitVec 4} {ie : Bool} {f : State → State} (h : startOf i = some (c, ie, f))
    (hp : s.phase ≠ .idle) : exec i s = .next { s with ie := ie, cmdOverrun := true } := by
  rw [exec_of_startOf h, issue_busy _ _ _ ((busy_iff s).2 hp)]

/-- Settles O18: each of the codes has a start rule, which a busy block does not run. -/
theorem commandWhileBusyIsRefused : Obligations.CommandWhileBusyIsRefused := by
  intro ie i s hi hp
  have hstart : ∃ c f, startOf i = some (c, ie, f) := by
    fin_cases hi <;> exact ⟨_, _, rfl⟩
  obtain ⟨c, f, hs⟩ := hstart
  exact exec_busy hs hp

/-- Only a word with bit 31 is a soft reset (30_encoding.md R143). -/
theorem decodeWord_ne_srst {v : Word} (h : v.getLsbD 31 = false) : decodeWord v ≠ .srst := by
  have hcommand : ∀ c ie, commandOf c ie ≠ .srst := by decide
  unfold decodeWord
  rw [if_neg (Bool.eq_false_iff.1 h)]
  split
  · exact hcommand _ _
  · nofun

/-- Settles O53: of a busy block a `CTRL` write without `SRST` and a plain register write change the named bits alone. -/
theorem hostCannotDisturbARunningCommand : Obligations.HostCannotDisturbARunningCommand := by
  intro s t a v hp hsrst h
  by_cases ha : a = ctrlAddr
  · rw [takeWrite_of_decode (i := decodeWord v) (if_pos ha)] at h
    rcases exec_cases (decodeWord v) s with ⟨c, ie, f, hs, -⟩ | ⟨hi, -⟩ | ⟨c, ie, -, e⟩
    · rw [exec_busy hs hp] at h
      cases h
      rfl
    · exact absurd hi (decodeWord_ne_srst (hsrst ha))
    · rw [e, if_pos ((busy_iff s).2 hp)] at h
      cases h
      rfl
  · simp only [takeWrite, decode, if_neg ha, Host.Outcome.next.injEq] at h
    subst h
    rcases hostWrite_cases a v s with e | e | ⟨-, e⟩ | ⟨hidle, -⟩
    · rw [e]
    · rw [e]; rfl
    · rw [e]
    · exact absurd ((idle_iff s).1 hidle) hp

/-! ## The frame of the commands that store nothing (O27) -/

/-- The part of the frame that all of them share: from `s` to `t` only these registers may change. -/
def StoresNothing (s t : State) : Prop :=
  t = { s with
    phase := t.phase, outreq := t.outreq, response := t.response, cmd := t.cmd, ie := t.ie, done := t.done, err := t.err
    failState := t.failState, malformedSeen := t.malformedSeen, cmdOverrun := t.cmdOverrun, discards := t.discards
    retryLeft := t.retryLeft, connState := t.connState, connValid := t.connValid, rxseg := t.rxseg, nextIsn := t.nextIsn }

/-- The start rules of the commands that store nothing: DECODE's, LISTEN's, or an end at once. -/
theorem startOf_storesNothing {i : Instr} {ie : Bool}
    (hi : i ∈ [Instr.decode ie, .listen ie, .send ie, .receive ie, .close ie, .illegal0 ie, .illegal6 ie, .illegal7 ie,
      .illegalB ie, .illegalC ie, .illegalD ie, .illegalE ie, .illegalF ie]) :
    ∃ c f, startOf i = some (c, ie, f) ∧
      ((i = .decode ie ∧ f = startDecode) ∨ (i = .listen ie ∧ f = startListen) ∨ ∃ e, f = endCodec e) := by
  fin_cases hi
  · exact ⟨_, _, rfl, .inl ⟨rfl, rfl⟩⟩
  · exact ⟨_, _, rfl, .inr (.inl ⟨rfl, rfl⟩)⟩
  all_goals exact ⟨_, _, rfl, .inr (.inr ⟨_, rfl⟩)⟩

theorem startDecode_cases (s : State) :
    startDecode s = endCodec .malformedSegment { s with malformedSeen := true } ∨
    ∃ d, startDecode s = finishOk (loadRx d s) := by
  unfold startDecode
  split
  · exact .inl rfl
  · exact .inr ⟨_, rfl⟩

/-- The whole frame of an instruction `i` that stores nothing. -/
def StoreFrame (ie : Bool) (i : Instr) (s t : State) : Prop :=
  StoresNothing s t ∧ (s.phase ≠ .idle ∨ (∃ cmd, i = .ctrlSet cmd ie) → t.nextIsn = s.nextIsn) ∧
    (i ≠ .decode ie → t.rxseg = s.rxseg ∧ t.malformedSeen = s.malformedSeen) ∧
    (i ≠ .listen ie → t.connState = s.connState ∧ t.connValid = s.connValid ∧ t.retryLeft = s.retryLeft)

/-- The frame of such a command when an idle block takes it. -/
theorem storeFrame_start {i : Instr} {c : BitVec 4} {ie : Bool} {f : State → State} (hs : startOf i = some (c, ie, f))
    (hf : (i = .decode ie ∧ f = startDecode) ∨ (i = .listen ie ∧ f = startListen) ∨ ∃ e, f = endCodec e)
    (hp : s.phase = .idle) : StoreFrame ie i s (endStep (f (prologue { s with ie := ie, cmd := c }))) := by
  have hstarts : ¬(s.phase ≠ .idle ∨ ∃ cmd, i = .ctrlSet cmd ie) := by
    rintro (h | ⟨cmd, rfl⟩)
    · exact h hp
    · cases hs
  rcases hf with ⟨rfl, rfl⟩ | ⟨rfl, rfl⟩ | ⟨e, rfl⟩
  · rcases startDecode_cases (prologue { s with ie := ie, cmd := c }) with e | ⟨d, e⟩ <;> rw [e] <;>
      exact ⟨rfl, fun h => absurd h hstarts, fun h => absurd rfl h, fun _ => ⟨rfl, rfl, rfl⟩⟩
  · exact ⟨rfl, fun h => absurd h hstarts, fun _ => ⟨rfl, rfl⟩, fun h => absurd rfl h⟩
  · exact ⟨rfl, fun h => absurd h hstarts, fun _ => ⟨rfl, rfl⟩, fun _ => ⟨rfl, rfl, rfl⟩⟩

/-- Settles O27: CTRL_SET and a refused command write flags alone; a command that starts runs a rule that stores
nothing. -/
theorem commandsThatStoreNothingLeaveTheBuffers : Obligations.CommandsThatStoreNothingLeaveTheBuffers := by
  intro ie i s t hi h
  have hframe : StoreFrame ie i s t := by
    rcases hi with hi | ⟨cmd, rfl⟩
    · obtain ⟨c, f, hs, hf⟩ := startOf_storesNothing hi
      by_cases hp : s.phase = .idle
      · rw [exec_of_startOf hs, issue_idle _ _ _ ((idle_iff s).2 hp)] at h
        cases h
        exact storeFrame_start hs hf hp
      · rw [exec_busy hs hp] at h
        cases h
        exact ⟨rfl, fun _ => rfl, fun _ => ⟨rfl, rfl⟩, fun _ => ⟨rfl, rfl, rfl⟩⟩
    · cases h
      exact ⟨rfl, fun _ => rfl, fun _ => ⟨rfl, rfl⟩, fun _ => ⟨rfl, rfl, rfl⟩⟩
  obtain ⟨hkept, hisn, hrx, hconn⟩ := hframe
  have kept {β : Type} (g : State → β) := congrArg g hkept
  exact ⟨fun o => kept fun u => Memory.read u.txbuf o, fun o => kept fun u => Memory.read u.rxbuf o,
    kept State.txlen, kept State.rxlen, kept State.txseg, kept State.argSession, kept State.argAddr, kept State.argPort,
    kept State.argLport, kept State.argBudget, kept State.connLocalSeq, kept State.connRemoteAcked,
    kept State.connSession, kept State.isnReg, kept State.peerIsn, kept State.peerPort, kept State.peerAddr,
    kept State.wrWhileBusy, kept State.deadline, hisn, hrx, hconn⟩

/-! ## The ports (O43, O44, O54) -/

theorem deliver_eq_self {r : Response}
    (h : ¬(r.shapeOk s.params = true ∧ s.response = none ∧ s.outreq.map Request.port = some r.port)) :
    deliver r s = s :=
  if_neg fun hc => h ((canAnswer_iff r s).1 hc)

/-- Settles O43, by the condition under which a response is delivered. -/
theorem responsesAnswerTheOutstandingRequest : Obligations.ResponsesAnswerTheOutstandingRequest := by
  refine fun s r => ⟨fun hq => deliver_eq_self ?_, fun hr => deliver_eq_self ?_, fun q hq hne => deliver_eq_self ?_,
    fun q hq hr hport hshape => if_pos ((canAnswer_iff r s).2 ⟨hshape, hr, ?_⟩)⟩
  · rintro ⟨-, -, hport⟩
    rw [hq] at hport
    cases hport
  · exact fun ⟨_, hnone, _⟩ => hr hnone
  · rintro ⟨-, -, hport⟩
    rw [hq] at hport
    exact hne (Option.some.inj hport)
  · rw [hq, ← hport]
    rfl

theorem blockEnabled_eq_false {p : Port}
    (h : s.phase = .idle ∨ (s.phase.waitsOn = some p ∧ ∀ r, s.response = some r → r.port ≠ p)) :
    s.blockEnabled = false := by
  unfold State.blockEnabled
  rcases h with hp | ⟨hp, hr⟩ <;> rw [hp]
  · rfl
  · cases hresp : s.response with
    | none => rfl
    | some r => simpa using hr r hresp

/-- Settles O44: with no turn scheduled the block moves, and its step is not enabled. -/
theorem waitingBlockChangesNothing : Obligations.WaitingBlockChangesNothing := by
  intro s p hsch hwait
  have hfetched : fetched s = { s with tick := s.tick + 1 } := by
    rw [fetched, hsch, List.tail_nil, ← hsch]
  have hturn : nextTurn s = .block := by rw [nextTurn, hsch]
  have hdisabled : ({ s with tick := s.tick + 1 } : State).blockEnabled = false := blockEnabled_eq_false hwait
  rw [step_eq, hturn, hfetched, takeTurn, blockStep_waiting hdisabled]

/-- The outstanding request of a state of the invariant, whatever its phase is (10_state.md R46). -/
theorem requestOk_cases (h : s.RequestOk) :
    s.outreq = none ∨ (∃ dst, s.AsksChecksum dst) ∨ (∃ dst, s.AsksSend dst) ∨
      s.outreq = some (.recv s.argSession s.params.rxBufBytes) ∨
      s.outreq = some (.sess s.argSession s.argAddr s.argPort s.params.protoNum s.peerAddr s.peerPort) := by
  unfold State.RequestOk at h
  cases hp : s.phase <;> simp only [hp] at h
  case idle | aSynackRecvIssue | pSynRecvIssue | pAckRecvIssue => exact .inl h
  case cCsumWait | aSynCsumWait | aAckCsumWait | pSynackCsumWait => exact .inr (.inl ⟨_, h⟩)
  case aSynSendWait | aAckSendWait | pSynackSendWait => exact .inr (.inr (.inl ⟨_, h⟩))
  case aSynackRecvWait | pSynRecvWait | pAckRecvWait => exact .inr (.inr (.inr (.inl h)))
  case pSessWait => exact .inr (.inr (.inr (.inr h)))

/-- Settles O54, by the request the invariant names: its bytes are the encoding of `TXSEG` that stands in `TXBUF`. -/
theorem outstandingRequestsHaveTheirShape : Obligations.OutstandingRequestsHaveTheirShape := by
  intro s hinv
  obtain ⟨-, hreq, -⟩ := inv_iff.1 hinv
  refine ⟨fun ses dst proto bytes hq => ?csum, fun ses dst proto bytes hq => ?send, fun ses n hq => ?recv⟩
  all_goals
    rcases requestOk_cases hreq with h | ⟨_, ⟨h5, hlen, hbuf⟩, hck, h⟩ | ⟨_, ⟨h5, hlen, hbuf⟩, h⟩ | h | h
    all_goals cases hq.symm.trans h
  case csum =>
    obtain ⟨h16, h17⟩ := encodeFn_checksum s.txseg
    rw [hck] at h16 h17
    have hmin : 20 ≤ (encodeFn s.txseg).length := by rw [length_encodeFn]; exact Nat.le_add_right 20 _
    exact ⟨rfl, rfl, hmin, length_encodeFn_le _, h16, h17⟩
  case send =>
    exact ⟨rfl, rfl, (length_encodeFn_wf h5).trans hlen.symm, fun o ho => (hbuf o (hlen ▸ ho)).symm⟩
  case recv => exact ⟨rfl, rfl⟩

end Sys2Proof.Machine
end

section
/-! PROOFS. The encodings (30_encoding.md): every `CTRL` word decodes to the row of its bits (O1, O3), decoding gives the
encoded instruction back (O2), and an encoded header has the wire layout (O4). -/

namespace Sys2Proof.Machine

/-! ## The command word (O1, O2, O3) -/

/-- A word with `SRST` set is SRST (30_encoding.md R143). -/
theorem decodeWord_of_srst (r : BitVec 31) : decodeWord (1#1 ++ r) = .srst :=
  if_pos (BitVec.getLsbD_append (x := 1#1) (y := r) (i := 31))

/-- A word with `SRST` clear, by its other fields: a command if `GO` is set, else a write of `CMD` and `IE`. -/
theorem decodeWord_of_getLsbD {w : Word} {go ie : Bool} (hsrst : w.getLsbD 31 = false) (hgo : w.getLsbD 4 = go)
    (hie : w.getLsbD 5 = ie) :
    decodeWord w = if go then commandOf (w.extractLsb' 0 4) ie else .ctrlSet (w.extractLsb' 0 4) ie := by
  simp only [decodeWord, hsrst, hgo, hie, Bool.false_eq_true, if_false]

/-- What the reserved bits 30:6 of a word hold, `r`, has no part in its decoding (30_encoding.md R140). -/
theorem decodeWord_of_fields (r : BitVec 25) (ie go : Bool) (c : BitVec 4) :
    decodeWord (0#1 ++ r ++ BitVec.ofBool ie ++ BitVec.ofBool go ++ c) = if go then commandOf c ie else .ctrlSet c ie := by
  have hcode : (0#1 ++ r ++ BitVec.ofBool ie ++ BitVec.ofBool go ++ c : Word).extractLsb' 0 4 = c := by
    rw [BitVec.extractLsb'_append_eq_of_add_le (by omega)]
    exact BitVec.extractLsb'_eq_self
  have hbits : let w := 0#1 ++ r ++ BitVec.ofBool ie ++ BitVec.ofBool go ++ c
      w.getLsbD 31 = false ∧ w.getLsbD 4 = go ∧ w.getLsbD 5 = ie := by
    simp only [BitVec.getLsbD_append]
    simp
  obtain ⟨hsrst, hgo, hie⟩ := hbits
  exact (decodeWord_of_getLsbD hsrst hgo hie).trans (by rw [hcode])

theorem decode_ctrlAddr (v : Word) : decode ctrlAddr v = .ok (decodeWord v) := if_pos rfl

/-- A word of 32 bits read from a table decodes as that word (30_encoding.md R144). -/
theorem decodeTableWord_toNat (v : Word) : decodeTableWord 32 v.toNat = some (decodeWord v) := by
  rw [decodeTableWord, if_pos ⟨Nat.le_refl 32, v.isLt⟩, BitVec.ofNat_toNat, BitVec.setWidth_eq, decode_ctrlAddr]

theorem decodeWord_goWord (c : BitVec 4) (ie : Bool) : decodeWord (goWord c ie) = commandOf c ie :=
  decodeWord_of_fields 0 ie true c

theorem decodeWord_encodeWord (i : Instr) : decodeWord (encodeWord i) = i := by
  cases i
  case srst => exact decodeWord_of_srst 0
  case ctrlSet c ie => exact decodeWord_of_fields 0 ie false c
  all_goals exact decodeWord_goWord _ _

/-- Settles O1: a command by its code, SRST, and CTRL_SET. -/
theorem commandWordsDecodeAsTheTableSays : Obligations.CommandWordsDecodeAsTheTableSays := by
  refine ⟨fun r ie => ?command, fun r => ?srst, fun r ie c => ?ctrlSet⟩
  case command => and_intros <;> exact (decode_ctrlAddr _).trans (congrArg _ (decodeWord_of_fields r ie true _))
  case srst => rw [decode_ctrlAddr, decodeWord_of_srst]
  case ctrlSet => exact (decode_ctrlAddr _).trans (congrArg _ (decodeWord_of_fields r ie false c))

/-- Settles O2: both decoders read the encoded word as `decodeWord` does. -/
theorem decodeOfEncodeIsTheInstruction : Obligations.DecodeOfEncodeIsTheInstruction := fun i _ =>
  ⟨by rw [decode_ctrlAddr, decodeWord_encodeWord], by rw [decodeTableWord_toNat, decodeWord_encodeWord]⟩

/-- Settles O3: six of the words are those of their instructions, and the one with `GO` under `SRST` is SRST. -/
theorem writtenOutWordsDecode : Obligations.WrittenOutWordsDecode :=
  ⟨decodeWord_encodeWord (.encode false), decodeWord_encodeWord (.decode true), decodeWord_encodeWord (.connect true),
    decodeWord_encodeWord (.close false), decodeWord_encodeWord (.illegalB false), decodeWord_of_srst 0x11,
    decodeWord_encodeWord (.ctrlSet 0x5 true)⟩

/-! ## The header (O4) -/

/-- Settles O4: a field of two or four bytes is its bytes put together, those of byte 12 its parts. -/
theorem encodedHeaderHasTheWireLayout : Obligations.EncodedHeaderHasTheWireLayout := by
  intro S h5
  obtain ⟨hdoff, hrsvd, hns⟩ := byte12_parts S.doff S.rsvd S.ns
  exact ⟨length_encodeFn_wf h5, concat_bytes2 S.srcPort, concat_bytes2 S.dstPort, concat_bytes4 S.seq,
    concat_bytes4 S.ack, hdoff, hrsvd, hns, rfl, concat_bytes2 S.window, concat_bytes2 S.checksum,
    concat_bytes2 S.urgent, fun _ hi h => byteAt_encodeFn_opt S h hi⟩

end Sys2Proof.Machine
end

section
/-! PROOFS. The segment codec and its commands (40_codec.md): decoding and encoding agree (O5), and which buffers are malformed
(O6); ENCODE, DECODE and CSUM (O20, O21, O22, O23), the frame of the commands that store to `TXBUF` (O28), what `RXSEG` holds
(O50), and what a handshake sends of what it asked the checksum of (O55). -/

namespace Sys2Proof.Machine

variable {s : State}

/-! ## Decoding and encoding (O5) -/

/-- The buffers that decode, and to what (40_codec.md R163). -/
theorem decodeFn_eq_some {b : List Byte} {d : Segment} :
    decodeFn b = some d ↔ 5 ≤ (doffOf b).toNat ∧ 4 * (doffOf b).toNat ≤ b.length ∧ headerOf b = d := by
  have hwell : malformed b = false ↔ 5 ≤ (doffOf b).toNat ∧ 4 * (doffOf b).toNat ≤ b.length := by
    simp only [malformed, Bool.or_eq_false_iff, decide_eq_false_iff_not]
    omega
  rw [← and_assoc, ← hwell, decodeFn]
  cases malformed b <;> simp

/-- The option bytes of a decoded segment: the header's, and 0 past it (40_codec.md R163). -/
theorem headerOf_opt (b : List Byte) {i : Nat} (hi : i < 40) :
    (headerOf b).opt[i] = if i < 4 * ((doffOf b).toNat - 5) then byteAt b (20 + i) else 0 :=
  Vector.getElem_ofFn hi

/-- An encoding holds the header of its segment, but for option bytes past the header. -/
theorem headerOf_encodeFn {S : Segment} (h5 : 5 ≤ S.doff.toNat)
    (htrim : ∀ (i : Nat) (hi : i < 40), 4 * (S.doff.toNat - 5) ≤ i → S.opt[i] = 0) : headerOf (encodeFn S) = S := by
  obtain ⟨-, hsrc, hdst, hseq, hack, hdoff, hrsvd, hns, hflags, hwin, hck, hurg, hbytes⟩ :=
    encodedHeaderHasTheWireLayout S h5
  have hopt : (headerOf (encodeFn S)).opt = S.opt := by
    ext i hi : 1
    rw [headerOf_opt _ hi, doffOf, hdoff]
    split
    · exact hbytes i hi ‹_›
    · exact (htrim i hi (Nat.not_lt.1 ‹_›)).symm
  calc headerOf (encodeFn S)
      = { headerOf (encodeFn S) with opt := S.opt } := by rw [← hopt]
    _ = S := by simp only [headerOf, doffOf, hsrc, hdst, hseq, hack, hdoff, hrsvd, hns, hflags, hwin, hck, hurg]

theorem map_byteAt_range {b : List Byte} {n : Nat} (h : n ≤ b.length) : (List.range n).map (byteAt b) = b.take n := by
  refine List.ext_getElem (by simpa using h) fun o ho _ => ?_
  have hb : o < b.length := by simp at ho; omega
  simp [byteAt, hb]

/-- The fixed part of a header is encoded as the bytes it was decoded from (40_codec.md R167). -/
theorem fixedBytes_headerOf (b : List Byte) : fixedBytes (headerOf b) = (List.range 20).map (byteAt b) := by
  have h16 (o : Nat) : put16 (be16 b o) = [byteAt b o, byteAt b (o + 1)] := put16_append _ _
  have h32 (o : Nat) : put32 (be32 b o) = [byteAt b o, byteAt b (o + 1), byteAt b (o + 2), byteAt b (o + 3)] :=
    put32_append _ _ _ _
  have h12 : byte12 (headerOf b) = byteAt b 12 := concat_byte12 _
  calc fixedBytes (headerOf b)
      = put16 (be16 b 0) ++ put16 (be16 b 2) ++ put32 (be32 b 4) ++ put32 (be32 b 8) ++ [byte12 (headerOf b), byteAt b 13]
          ++ put16 (be16 b 14) ++ put16 (be16 b 16) ++ put16 (be16 b 18) := rfl
    _ = (List.range 20).map (byteAt b) := by simp only [h16, h32, h12]; rfl

/-- So are its options. -/
theorem optBytes_headerOf (b : List Byte) :
    optBytes (headerOf b) = (List.range (4 * ((doffOf b).toNat - 5))).map fun i => byteAt b (20 + i) := by
  refine List.ext_getElem (by rw [length_optBytes, List.length_map, List.length_range]; rfl) fun i hi hj => ?_
  have hopt : i < 4 * ((doffOf b).toNat - 5) := by simpa using hj
  have h40 : i < 40 := by have := (doffOf b).isLt; omega
  have hbyte : (optBytes (headerOf b))[i] = (headerOf b).opt[i] := by simp [optBytes]
  rw [hbyte, headerOf_opt b h40, if_pos hopt, List.getElem_map, List.getElem_range]

/-- What a well-formed buffer decodes to is encoded as the bytes of its header (40_codec.md R167). -/
theorem encodeFn_headerOf {b : List Byte} (h5 : 5 ≤ (doffOf b).toNat) (hlen : 4 * (doffOf b).toNat ≤ b.length) :
    encodeFn (headerOf b) = b.take (4 * (doffOf b).toNat) := by
  have hsplit : 4 * (doffOf b).toNat = 20 + 4 * ((doffOf b).toNat - 5) := by omega
  rw [encodeFn_eq, fixedBytes_headerOf, optBytes_headerOf, ← map_byteAt_range hlen, hsplit, List.range_add,
    List.map_append, List.map_map]
  rfl

/-- Settles O5: a header is encoded and decoded field by field, at the offsets of the wire layout. -/
theorem segmentDecodeAndEncodeAgree : Obligations.SegmentDecodeAndEncodeAgree := by
  refine ⟨fun S h5 htrim => ?decode, fun b d hd => ?encode⟩
  case decode =>
    obtain ⟨hlen, -, -, -, -, hdoff, -⟩ := encodedHeaderHasTheWireLayout S h5
    rw [← doffOf] at hdoff
    exact decodeFn_eq_some.2 ⟨hdoff ▸ h5, hdoff ▸ hlen.ge, headerOf_encodeFn h5 htrim⟩
  case encode =>
    obtain ⟨h5, hlen, rfl⟩ := decodeFn_eq_some.1 hd
    exact encodeFn_headerOf h5 hlen

/-! ## Malformed buffers (O6) -/

theorem decodeFn_eq_none {b : List Byte} :
    decodeFn b = none ↔ (doffOf b).toNat < 5 ∨ b.length < 4 * (doffOf b).toNat := by
  rw [Option.eq_none_iff_forall_ne_some]
  simp only [ne_eq, decodeFn_eq_some]
  constructor
  · intro h
    by_contra hwell
    exact h _ ⟨by omega, by omega, rfl⟩
  · rintro h d ⟨h5, hlen, -⟩
    omega

/-- Bytes past the header are not read (40_codec.md R164). -/
theorem headerOf_append {b : List Byte} (p : List Byte) (h5 : 5 ≤ (doffOf b).toNat)
    (hlen : 4 * (doffOf b).toNat ≤ b.length) : headerOf (b ++ p) = headerOf b := by
  have hbyte (o : Nat) (ho : o < 4 * (doffOf b).toNat) : byteAt (b ++ p) o = byteAt b o :=
    List.getD_append _ _ _ _ (Nat.lt_of_lt_of_le ho hlen)
  have hfixed (o : Nat) (ho : o < 20) : byteAt (b ++ p) o = byteAt b o := hbyte o (by omega)
  have hdoff : doffOf (b ++ p) = doffOf b := by rw [doffOf, hfixed 12 (by omega), ← doffOf]
  have hopt : (headerOf (b ++ p)).opt = (headerOf b).opt := by
    ext i hi : 1
    rw [headerOf_opt _ hi, headerOf_opt _ hi, hdoff]
    split
    · exact hbyte _ (by omega)
    · rfl
  calc headerOf (b ++ p)
      = { headerOf (b ++ p) with opt := (headerOf b).opt } := by rw [← hopt]
    _ = headerOf b := by simp (disch := decide) only [headerOf, hdoff, be16, be32, hfixed]

/-- Settles O6: the clauses are those of R164, and a buffer that decodes is read field by field. -/
theorem malformedBuffersAreTheShortAndTheIllFormed : Obligations.MalformedBuffersAreTheShortAndTheIllFormed := by
  refine ⟨fun b hb => decodeFn_eq_none.2 (by omega), fun b _ hd => decodeFn_eq_none.2 (.inl (Nat.lt_succ_of_le hd)),
    fun b _ _ hb => decodeFn_eq_none.2 (.inr hb), fun b h5 hlen => ?_⟩
  have hdoff {p : List Byte} : doffOf (b ++ p) = doffOf b := congrArg Segment.doff (headerOf_append p h5 hlen)
  refine ⟨headerOf b, decodeFn_eq_some.2 ⟨h5, hlen, rfl⟩, fun p => decodeFn_eq_some.2 ⟨?_, ?_, headerOf_append p h5 hlen⟩,
    rfl, rfl, rfl, rfl, concat_byte12 _, rfl, fun i hi => ?_⟩
  · rw [hdoff]; exact h5
  · rw [hdoff, List.length_append]; exact Nat.le_add_right_of_le hlen
  · have hheader : 20 + i < 4 * (headerOf b).doff.toNat ↔ i < 4 * ((doffOf b).toNat - 5) := by
      rw [show (headerOf b).doff = doffOf b from rfl]
      omega
    simp only [headerOf_opt b hi, hheader]

/-! ## The commands of an idle block (O20, O21, O22) -/

/-- An idle block runs the prologue and the start rule (20_memory.md R82). -/
theorem exec_idle {i : Instr} {c : BitVec 4} {ie : Bool} {f : State → State} (h : startOf i = some (c, ie, f))
    (hp : s.phase = .idle) : exec i s = .next (endStep (f (prologue { s with ie := ie, cmd := c }))) := by
  rw [exec_of_startOf h, issue_idle _ _ _ ((idle_iff s).2 hp)]

/-- `TXBUF` after a store of an encoding: its bytes, and from its length on the old ones (40_codec.md R162). -/
theorem read_store_encodeFn (m : Memory) {S : Segment} (h5 : 5 ≤ S.doff.toNat) (o : Nat) :
    Memory.read (Memory.writeBytes m 0 (encodeFn S)) o =
      if o < 4 * S.doff.toNat then (encodeFn S)[o]? else Memory.read m o := by
  have hlen : (encodeFn S).length = 4 * S.doff.toNat := length_encodeFn_wf h5
  split
  · exact read_writeBytes_encodeFn m (by omega)
  · rw [read_writeBytes, dif_neg (by omega)]

/-- The start rule of ENCODE refuses a header that is too short, or stores the encoding. -/
theorem startEncode_cases (s : State) :
    (s.txseg.doff.toNat < 5 ∧ startEncode s = endCodec .badHeaderLength s) ∨
    (5 ≤ s.txseg.doff.toNat ∧ startEncode s = finishOk { s with
      txbuf := Memory.writeBytes s.txbuf 0 (encodeFn s.txseg), txlen := BitVec.ofNat 7 (headerLen s.txseg) }) := by
  rcases Nat.lt_or_ge s.txseg.doff.toNat 5 with h | h
  · exact .inl ⟨h, if_pos h⟩
  · exact .inr ⟨h, if_neg (Nat.not_lt.2 h)⟩

/-- The start rule of CSUM refuses a header that is too short, or asks for the checksum. -/
theorem startCsum_cases (s : State) :
    (s.txseg.doff.toNat < 5 ∧ startCsum s = endCodec .badHeaderLength s) ∨
    (5 ≤ s.txseg.doff.toNat ∧ startCsum s = { ckbind s.argAddr s with phase := .cCsumWait }) := by
  rcases Nat.lt_or_ge s.txseg.doff.toNat 5 with h | h
  · exact .inl ⟨h, if_pos h⟩
  · exact .inr ⟨h, if_neg (Nat.not_lt.2 h)⟩

/-- Settles O20, by the length of the header. -/
theorem encodeWritesTheEncoding : Obligations.EncodeWritesTheEncoding := by
  intro ie s hp
  have hstart := exec_idle (i := .encode ie) rfl hp
  rw [hp]
  rcases startEncode_cases (prologue { s with ie := ie, cmd := 0x1 }) with ⟨hlt, e⟩ | ⟨h5, e⟩ <;> rw [e] at hstart
  · exact ⟨fun _ => hstart, fun h5 => absurd h5 (Nat.not_le.2 hlt)⟩
  · -- `m` keeps the stored bytes from being unfolded when the next states are compared
    generalize hm : Memory.writeBytes _ 0 _ = m at hstart
    exact ⟨fun hlt => absurd h5 (Nat.not_le.2 hlt), fun _ => ⟨m, hstart, hm ▸ read_store_encodeFn s.txbuf h5⟩⟩

/-- Settles O22, by the length of the header. -/
theorem csumAsksForTheChecksum : Obligations.CsumAsksForTheChecksum := by
  intro ie s hp
  have hstart := exec_idle (i := .csum ie) rfl hp
  rcases startCsum_cases (prologue { s with ie := ie, cmd := 0x3 }) with ⟨hlt, e⟩ | ⟨h5, e⟩ <;> rw [e] at hstart
  · rw [hp]
    exact ⟨fun _ => hstart, fun h5 => absurd h5 (Nat.not_le.2 hlt)⟩
  · simp only [ckbind_txbuf] at hstart
    generalize hm : Memory.writeBytes _ 0 _ = m at hstart
    exact ⟨fun hlt => absurd h5 (Nat.not_le.2 hlt),
      fun _ => ⟨m, hstart, hm ▸ read_store_encodeFn (S := { s.txseg with checksum := 0 }) s.txbuf h5⟩⟩

/-- The written bytes are among those a decode reads, whatever the free values are (70_reset_and_hazards.md R349). -/
theorem getElem?_prefixBytes {m : Memory} {n o : Nat} {v : Byte} (tick : Nat) (ho : o < n)
    (h : Memory.read m o = some v) : (Memory.prefixBytes m n tick)[o]? = some v := by
  simp [Memory.prefixBytes, ho, h]

theorem startDecode_malformed (h : decodeFn (rxValid s) = none) :
    startDecode s = endCodec .malformedSegment { s with malformedSeen := true } := by
  rw [startDecode, h]

theorem startDecode_decodes {d : Segment} (h : decodeFn (rxValid s) = some d) : startDecode s = finishOk (loadRx d s) := by
  rw [startDecode, h]

/-- Settles O21: the bytes are those the step reads, with its free values at the unwritten offsets. -/
theorem decodeLoadsTheReceivedSegment : Obligations.DecodeLoadsTheReceivedSegment := by
  intro ie s hp
  have hstart := exec_idle (i := .decode ie) rfl hp
  rw [hp]
  refine ⟨rxValid s, length_prefixBytes _ _ _, fun o v ho hv => getElem?_prefixBytes _ ho hv, fun hd => ?malformed,
    fun d hd => ?decodes⟩
  case malformed => rw [hstart, startDecode_malformed (by exact hd)]; rfl
  case decodes => rw [hstart, startDecode_decodes (by exact hd)]; rfl

/-! ## The response step of CSUM (O23) -/

/-- `INSERT_CK` writes two bytes of `TXBUF`, the most significant first (40_codec.md R173). -/
theorem read_insertCk_txbuf (c : Half) (s : State) (o : Nat) :
    Memory.read (insertCk c s).txbuf o =
      if o = 16 then some (c.extractLsb' 8 8) else if o = 17 then some (c.extractLsb' 0 8)
      else Memory.read s.txbuf o := by
  have hwrites : (insertCk c s).txbuf =
      Memory.write (Memory.write s.txbuf 16 (c.extractLsb' 8 8)) 17 (c.extractLsb' 0 8) := rfl
  rw [hwrites]
  split_ifs with h16 h17
  · rw [h16, read_write_other _ _ (by decide), read_write_same]
  · rw [h17, read_write_same]
  · rw [read_write_other _ _ h17, read_write_other _ _ h16]

/-- Settles O23, by what `INSERT_CK` writes and keeps. -/
theorem csumInsertsTheChecksum : Obligations.CsumInsertsTheChecksum := by
  intro c s hp hr
  have hstep := blockStep_cCsumWait hp hr
  refine ⟨_, hstep, fun o => read_insertCk_txbuf c s o, fun henc => ?_⟩
  rw [hstep]
  exact insertCk_txEncoded c (s := clearPort s) henc

/-! ## The frame of the commands that store to `TXBUF` (O28) -/

/-- The part of the frame that all of them share: only these registers may differ from `s` to `t`. -/
def StoresTxOnly (s t : State) : Prop :=
  { t with
    phase := s.phase, outreq := s.outreq, response := s.response, cmd := s.cmd, ie := s.ie, done := s.done, err := s.err
    failState := s.failState, cmdOverrun := s.cmdOverrun, discards := s.discards, connState := s.connState
    connValid := s.connValid, isnReg := s.isnReg, txseg := s.txseg, txbuf := s.txbuf, txlen := s.txlen
    nextIsn := s.nextIsn } = s

/-- From `s` to `t` all of `TXBUF`, `TXLEN` and `TXSEG` stay. -/
def TxKept (s t : State) : Prop := t.txlen = s.txlen ∧ t.txseg = s.txseg ∧ t.txbuf = s.txbuf

/-- From `s` to `t` the registers stay that CONNECT alone writes, and `TXSEG` but for its checksum. -/
def CodecKept (s t : State) : Prop :=
  t.connState = s.connState ∧ t.connValid = s.connValid ∧ t.isnReg = s.isnReg ∧
    { t.txseg with checksum := s.txseg.checksum } = s.txseg

/-- The whole frame of a command `i` that stores to `TXBUF`. -/
def HeaderFrame (ie : Bool) (i : Instr) (s t : State) : Prop :=
  StoresTxOnly s t ∧ (∀ o, headerLen t.txseg ≤ o → Memory.read t.txbuf o = Memory.read s.txbuf o) ∧
    (s.phase ≠ .idle ∨ (i ≠ .connect ie ∧ s.txseg.doff.toNat < 5) → TxKept s t) ∧
    (s.phase ≠ .idle → t.nextIsn = s.nextIsn) ∧ (i ≠ .connect ie → CodecKept s t)

/-- A form that stores nothing. -/
theorem headerFrame_of_txKept {ie : Bool} {i : Instr} {t : State} (hframe : StoresTxOnly s t) (htx : TxKept s t)
    (hisn : s.phase ≠ .idle → t.nextIsn = s.nextIsn) (hcodec : i ≠ .connect ie → CodecKept s t) :
    HeaderFrame ie i s t :=
  ⟨hframe, fun o _ => let ⟨_, _, hbuf⟩ := htx; by rw [hbuf], fun _ => htx, hisn, hcodec⟩

/-- A form that stores the encoding of the segment it leaves in `TXSEG`. -/
theorem headerFrame_of_store {ie : Bool} {i : Instr} {t : State} (hp : s.phase = .idle)
    (h5 : i ≠ .connect ie → 5 ≤ s.txseg.doff.toNat) (hframe : StoresTxOnly s t) (ht5 : 5 ≤ t.txseg.doff.toNat)
    (hstore : t.txbuf = Memory.writeBytes s.txbuf 0 (encodeFn t.txseg)) (hcodec : i ≠ .connect ie → CodecKept s t) :
    HeaderFrame ie i s t := by
  refine ⟨hframe, fun o ho => ?_, ?_, fun h => absurd hp h, hcodec⟩
  · rw [hstore]
    exact (read_store_encodeFn _ ht5 o).trans (if_neg (Nat.not_lt.2 ho))
  · rintro (h | ⟨hi, hlt⟩)
    · exact absurd hp h
    · exact absurd (h5 hi) (Nat.not_le.2 hlt)

/-- The frame of ENCODE when an idle block takes it. -/
theorem headerFrame_encode (ie : Bool) (hp : s.phase = .idle) :
    HeaderFrame ie (.encode ie) s (endStep (startEncode (prologue { s with ie := ie, cmd := 0x1 }))) := by
  rcases startEncode_cases (prologue { s with ie := ie, cmd := 0x1 }) with ⟨-, e⟩ | ⟨h5, e⟩ <;> rw [e]
  · exact headerFrame_of_txKept rfl ⟨rfl, rfl, rfl⟩ (absurd hp) fun _ => ⟨rfl, rfl, rfl, rfl⟩
  · exact headerFrame_of_store hp (fun _ => h5) rfl h5 (by simp) fun _ => ⟨rfl, rfl, rfl, rfl⟩

/-- The frame of CSUM when an idle block takes it. -/
theorem headerFrame_csum (ie : Bool) (hp : s.phase = .idle) :
    HeaderFrame ie (.csum ie) s (endStep (startCsum (prologue { s with ie := ie, cmd := 0x3 }))) := by
  rcases startCsum_cases (prologue { s with ie := ie, cmd := 0x3 }) with ⟨-, e⟩ | ⟨h5, e⟩ <;> rw [e]
  · exact headerFrame_of_txKept rfl ⟨rfl, rfl, rfl⟩ (absurd hp) fun _ => ⟨rfl, rfl, rfl, rfl⟩
  · exact headerFrame_of_store hp (fun _ => h5) rfl h5 (by simp) fun _ => ⟨rfl, rfl, rfl, rfl⟩

/-- The frame of CONNECT when an idle block takes it: its SYN has a header of 20 bytes. -/
theorem headerFrame_connect (ie : Bool) (hp : s.phase = .idle) :
    HeaderFrame ie (.connect ie) s (endStep (startConnect (prologue { s with ie := ie, cmd := 0x4 }))) :=
  headerFrame_of_store hp (absurd rfl) rfl (Nat.le_refl 5) (by simp [startConnect]) (absurd rfl)

/-- A refused command writes flags alone. -/
theorem headerFrame_busy (ie : Bool) (i : Instr) (s : State) :
    HeaderFrame ie i s { s with ie := ie, cmdOverrun := true } :=
  headerFrame_of_txKept rfl ⟨rfl, rfl, rfl⟩ (fun _ => rfl) fun _ => ⟨rfl, rfl, rfl, rfl⟩

/-- Settles O28: a busy block refuses the command, and an idle one runs its start rule. -/
theorem commandsThatStoreTouchOnlyTheHeaderBytes : Obligations.CommandsThatStoreTouchOnlyTheHeaderBytes := by
  intro ie i s t hi h
  have hframe : HeaderFrame ie i s t := by
    have hstart : ∃ c f, startOf i = some (c, ie, f) ∧
        (s.phase = .idle → HeaderFrame ie i s (endStep (f (prologue { s with ie := ie, cmd := c })))) := by
      fin_cases hi
      · exact ⟨_, _, rfl, headerFrame_encode ie⟩
      · exact ⟨_, _, rfl, headerFrame_csum ie⟩
      · exact ⟨_, _, rfl, headerFrame_connect ie⟩
    obtain ⟨c, f, hs, hidle⟩ := hstart
    by_cases hp : s.phase = .idle
    · rw [exec_idle hs hp] at h
      cases h
      exact hidle hp
    · rw [exec_busy hs hp] at h
      cases h
      exact headerFrame_busy ie i s
  obtain ⟨hkept, hread, htx, hisn, hcodec⟩ := hframe
  have kept {β : Type} (g : State → β) := congrArg g hkept
  exact ⟨fun o => kept fun u => Memory.read u.rxbuf o, hread,
    fun hnone => let ⟨hlen, hseg, hbuf⟩ := htx hnone; ⟨hlen, hseg, fun o => by rw [hbuf]⟩,
    kept State.rxlen, kept State.rxseg, kept State.argSession, kept State.argAddr, kept State.argPort,
    kept State.argLport, kept State.argBudget, kept State.retryLeft, kept State.connLocalSeq, kept State.connRemoteAcked,
    kept State.connSession, kept State.peerIsn, kept State.peerPort, kept State.peerAddr, kept State.malformedSeen,
    kept State.wrWhileBusy, kept State.deadline, hisn, hcodec⟩

/-! ## What `RXSEG` holds (O50) -/

/-- From `s` to `t` `RXSEG` stays, or it takes a decoded segment (40_codec.md R166). -/
def RxsegDecoded (s t : State) : Prop := t.rxseg = s.rxseg ∨ ∃ b, decodeFn b = some t.rxseg

theorem discard_rxseg (back : Phase) (s : State) : (discard back s).rxseg = s.rxseg := by
  rcases discard_cases back s with ⟨-, e⟩ | ⟨-, e⟩ <;> rw [e]
  rfl

theorem issueRecv_rxseg (wait : Phase) (s : State) : (issueRecv wait s).rxseg = s.rxseg := by
  rcases issueRecv_cases wait s with ⟨-, e⟩ | ⟨-, e⟩ <;> rw [e] <;> rfl

theorem sendRespond_rxseg {sent : State → State} (h : ∀ s, (sent s).rxseg = s.rxseg) (r : Word) (s : State) :
    (sendRespond sent r s).rxseg = s.rxseg := by
  rcases sendRespond_cases sent r s with ⟨-, e⟩ | ⟨-, e⟩ <;> rw [e]
  · rfl
  · exact h s

/-- A received segment is loaded only when it decodes. -/
theorem recvRespond_rxseg {acc : Segment → State → State} (hacc : ∀ d s, (acc d s).rxseg = s.rxseg) (back : Phase)
    (m : Segment → State → Bool) (r : Word) (bs : List Byte) (s : State) :
    RxsegDecoded s (recvRespond back m acc r bs s) := by
  rcases recvRespond_cases back m acc r bs s with ⟨-, e⟩ | ⟨-, -, e⟩ | ⟨d, -, hd, -, e⟩ | ⟨d, -, hd, -, e⟩ <;> rw [e]
  · exact .inl rfl
  · exact .inl (discard_rxseg _ _)
  · exact .inr ⟨_, hd.trans (congrArg some (discard_rxseg back (loadRx d (rxStore r bs s))).symm)⟩
  · exact .inr ⟨_, hd.trans (congrArg some (hacc d (loadRx d (rxStore r bs s))).symm)⟩

theorem blockStep_rxseg (s : State) : RxsegDecoded s (blockStep s) := by
  rcases blockStep_cases s with e | ⟨c, -, -, e⟩ | ⟨c, -, -, e⟩ | ⟨r, -, -, e⟩ | ⟨-, e⟩ | ⟨r, bs, a, -, -, e⟩ |
    ⟨c, -, -, e⟩ | ⟨r, -, -, e⟩ | ⟨-, e⟩ | ⟨r, bs, a, -, -, e⟩ | ⟨c, -, -, e⟩ | ⟨r, -, -, e⟩ | ⟨-, e⟩ |
    ⟨r, bs, a, -, -, e⟩ | ⟨ok, x, -, -, e⟩ <;> rw [e]
  · exact .inl rfl
  · exact .inl rfl
  · exact .inl rfl
  · exact .inl (sendRespond_rxseg (sent := synSent) (fun _ => rfl) r (clearPort s))
  · exact .inl (issueRecv_rxseg _ s)
  · exact recvRespond_rxseg (acc := acceptSynack) (fun _ _ => rfl) _ _ r bs (clearPort s)
  · exact .inl rfl
  · exact .inl (sendRespond_rxseg (sent := completeActive) (fun _ => rfl) r (clearPort s))
  · exact .inl (issueRecv_rxseg _ s)
  · exact recvRespond_rxseg (acc := acceptSyn a) (fun _ _ => rfl) _ _ r bs (clearPort s)
  · exact .inl rfl
  · exact .inl (sendRespond_rxseg (sent := synackSent) (fun _ => rfl) r (clearPort s))
  · exact .inl (issueRecv_rxseg _ s)
  · exact recvRespond_rxseg (acc := acceptAck) (fun _ _ => rfl) _ _ r bs (clearPort s)
  · rcases sessRespond_cases ok x (clearPort s) with ⟨-, e⟩ | ⟨-, e⟩ <;> rw [e] <;> exact .inl rfl

/-- Of the start rules DECODE's alone writes `RXSEG`. -/
theorem start_rxseg {i : Instr} {c : BitVec 4} {ie : Bool} {f : State → State} (h : startOf i = some (c, ie, f))
    (s : State) : RxsegDecoded s (f s) := by
  rcases startOf_cases h with ⟨-, rfl⟩ | ⟨-, rfl⟩ | ⟨-, rfl⟩ | ⟨-, rfl⟩ | ⟨-, rfl⟩ | ⟨e, rfl⟩
  · rcases startEncode_cases s with ⟨-, e⟩ | ⟨-, e⟩ <;> rw [e] <;> exact .inl rfl
  · cases hd : decodeFn (rxValid s) with
    | none => rw [startDecode_malformed hd]; exact .inl rfl
    | some d => rw [startDecode_decodes hd]; exact .inr ⟨_, hd⟩
  · rcases startCsum_cases s with ⟨-, e⟩ | ⟨-, e⟩ <;> rw [e] <;> exact .inl rfl
  · exact .inl rfl
  · exact .inl rfl
  · exact .inl rfl

/-- What a turn `u` may do to `RXSEG`. -/
def RxsegMove (u : Turn) (s t : State) : Prop :=
  RxsegDecoded s t ∨ (u.resets = true ∧ t.rxseg = Segment.zero)

theorem step_rxseg {s t : State} (hst : step s = .next t) : RxsegMove (nextTurn s) s t := by
  refine step_relates RxsegMove ?read ?write ?busy ?start ?srst ?set ?wait ?respond ?deadline ?isn ?reset ?block hst
  case write =>
    exact fun a v s _ =>
      .inl (.inl (hostWrite_keeps a v s State.rxseg (fun _ _ => rfl) (fun _ _ => rfl) fun _ _ _ _ _ _ _ _ _ => rfl))
  case start => exact fun v c ie f s hs _ => .inl (start_rxseg hs (prologue { s with ie := ie, cmd := c }))
  case srst => exact fun v s h => .inr ⟨resets_srst h, rfl⟩
  case wait => exact fun s => .inl (.inl (pollDone_keeps s State.rxseg fun _ _ _ => rfl))
  case respond => exact fun r s => .inl (.inl (deliver_keeps r s State.rxseg fun _ _ => rfl))
  case reset => exact fun s => .inr ⟨rfl, rfl⟩
  case block => exact fun s => .inl (blockStep_rxseg s)
  all_goals intros; exact .inl (.inl rfl)

/-- Settles O50: no step but a load of a decoded segment and a reset writes `RXSEG`. -/
theorem rxsegHoldsOnlyDecodedSegments : Obligations.RxsegHoldsOnlyDecodedSegments :=
  fun _ _ hst hne => (step_rxseg hst).imp_left fun h => h.resolve_left hne

/-! ## What a handshake sends (O55) -/

/-- In a handshake the answer to a checksum request is inserted and the segment is sent to the same destination
(41_handshake_active.md R203, R212, 42_handshake_passive.md R248). -/
theorem blockStep_sends {c : Half} (h : s.RequestOk) (hp : s.phase ≠ .cCsumWait)
    (hq : s.outreq.map Request.port = some .csum) (hr : s.response = some (.csum c)) :
    ∃ dst, s.AsksChecksum dst ∧
      (blockStep s).outreq =
        some (.send s.argSession dst s.params.protoNum (encodeFn { s.txseg with checksum := c })) := by
  have hport : s.phase.waitsOn = some .csum := (requestOk_port h).symm.trans hq
  have hsent (dst : Addr) (u : State) (henc : u.TxEncoded) :
      (requestSend dst (insertCk c u)).outreq =
        some (.send u.argSession dst u.params.protoNum (encodeFn { u.txseg with checksum := c })) :=
    let ⟨_, hout⟩ := requestSend_asksSend dst (insertCk_txEncoded c henc)
    hout
  unfold State.RequestOk at h
  cases hphase : s.phase <;> simp only [hphase] at h hport
  case cCsumWait => exact absurd hphase hp
  case aSynCsumWait =>
    rw [blockStep_aSynCsumWait hphase hr]
    exact ⟨s.argAddr, h, hsent _ (clearPort s) h.1⟩
  case aAckCsumWait =>
    rw [blockStep_aAckCsumWait hphase hr]
    exact ⟨s.argAddr, h, hsent _ (clearPort s) h.1⟩
  case pSynackCsumWait =>
    rw [blockStep_pSynackCsumWait hphase hr]
    exact ⟨s.peerAddr, h, hsent _ (clearPort s) h.1⟩
  all_goals cases hport

/-- The two bytes of the checksum, set in an encoding. -/
theorem encodeFn_set_checksum (S : Segment) (c : Half) :
    ((encodeFn S).set 16 (c.extractLsb' 8 8)).set 17 (c.extractLsb' 0 8) = encodeFn { S with checksum := c } := rfl

/-- Zeroing the checksum's bytes gives the encoding with checksum 0 (40_codec.md R174). -/
theorem encodeFn_zero_checksum (S : Segment) : ((encodeFn S).set 16 0).set 17 0 = encodeFn { S with checksum := 0 } := by
  simpa using encodeFn_set_checksum S 0

/-- Settles O55: the bytes asked for and sent are the encodings of one segment with checksum 0 and `c`. -/
theorem sentBytesAreTheChecksummedBytes : Obligations.SentBytesAreTheChecksummedBytes := by
  intro s ses dst proto asked c hinv hp hq hr
  obtain ⟨-, hreq, -⟩ := inv_iff.1 hinv
  obtain ⟨_, ⟨-, hck, hasked⟩, hsent⟩ := blockStep_sends hreq hp (congrArg _ hq) hr
  cases hq.symm.trans hasked
  obtain ⟨h16, h17⟩ := encodeFn_checksum { s.txseg with checksum := c }
  refine ⟨_, hsent, by simp only [length_encodeFn], h16, h17, ?_⟩
  rw [encodeFn_zero_checksum]
  exact congrArg encodeFn (by rw [← hck])

end Sys2Proof.Machine
end

section
/-! PROOFS. Active open (41_handshake_active.md): the SYN-ACK test (O38), the GO step of CONNECT (O29), the steps that consume
a checksum or a send result (O30, O32, O37), the receive phases (O33, O36), and whole handshakes: CONNECT against any
answers within the budget (O58), and two blocks against each other (O60). -/

namespace Sys2Proof.Machine

variable {s : State}

/-! ## The tests of the receive phases (O38) -/

theorem portOk_iff (chk : ActivePortCheck) (argPort argLport : Half) (d : Segment) :
    portOk chk argPort argLport d = true ↔ PortsFor chk argPort argLport d := by
  cases chk <;> simp [portOk, PortsFor]

theorem matchSynack_eq_true (d : Segment) (s : State) :
    matchSynack d s = true ↔
      d.flags.getLsbD 1 = true ∧ d.flags.getLsbD 4 = true ∧
        portOk s.params.activePortCheck s.argPort s.argLport d = true ∧ d.ack = s.isnReg + 1 := by
  simp [matchSynack, isSynAck, Word.succ32, and_assoc]

theorem matchSynack_iff (d : Segment) (s : State) :
    matchSynack d s = true ↔ SynackFor s.params.activePortCheck s.argPort s.argLport s.isnReg d := by
  rw [matchSynack_eq_true, portOk_iff, SynackFor]

theorem matchSyn_iff (d : Segment) (s : State) : matchSyn d s = true ↔ SynFor s.argPort d := by
  simp [matchSyn, isPureSyn, SynFor, and_assoc]

theorem matchAck_iff (d : Segment) (s : State) : matchAck d s = true ↔ AckFor s.argPort s.isnReg s.peerIsn d := by
  simp [matchAck, isPureAck, AckFor, Word.succ32, and_assoc]

/-- Settles O38: the port test by the value of the parameter, and at full width every bit is carried. -/
theorem portTestFollowsTheParameter : Obligations.PortTestFollowsTheParameter := by
  refine ⟨fun p l d => ⟨portOk_iff .peerSrc p l d, portOk_iff .localDst p l d, portOk_iff .argDst p l d,
    portOk_iff .both p l d⟩, fun s d => matchSynack_eq_true d s, rfl, rfl, rfl, rfl, rfl, rfl, rfl, fun a => ?_, fun h => ?_⟩
  · exact (BitVec.setWidth_eq (a.setWidth 128)).trans (BitVec.setWidth_eq a)
  · exact (BitVec.setWidth_eq (h.setWidth 32)).trans (BitVec.setWidth_eq h)

/-! ## The steps that consume a send result (O32, O37) -/

theorem nonPositive_eq_false {r : Word} (h : 0 < r.toInt) : nonPositive r = false :=
  decide_eq_false (Int.not_le.2 h)

/-- A positive result goes on with the phase's rule (41_handshake_active.md R204, R213). -/
theorem sendRespond_positive {r : Word} (h : 0 < r.toInt) (sent : State → State) (s : State) :
    sendRespond sent r s = sent s :=
  if_neg (Bool.eq_false_iff.1 (nonPositive_eq_false h))

/-- Settles O32, by the rule of each of the two phases. -/
theorem successfulSendStartsTheReceivePhase : Obligations.SuccessfulSendStartsTheReceivePhase := by
  refine fun r s hr hpos => ⟨fun hp => ?_, fun hp => ?_⟩
  · rw [blockStep_aSynSendWait hp hr, sendRespond_positive hpos]; rfl
  · rw [blockStep_pSynackSendWait hp hr, sendRespond_positive hpos]; rfl

/-- Settles O37: the rule is `complete_active`. -/
theorem sentAckCompletesConnect : Obligations.SentAckCompletesConnect := by
  intro s r hp hr hpos
  rw [blockStep_aAckSendWait hp hr, sendRespond_positive hpos]; rfl

/-! ## The issue steps (O33) -/

/-- The block's step in an issue phase, said once for the three (41_handshake_active.md R205, 42_handshake_passive.md R243,
R250). -/
theorem blockStep_issue {issue wait : Phase} {accepts : Segment → Prop} (h : s.ReceivePhase issue wait accepts)
    (hp : s.phase = issue) : blockStep s = endStep (issueRecv wait s) := by
  rcases h with ⟨rfl, rfl, -⟩ | ⟨rfl, rfl, -⟩ | ⟨rfl, rfl, -⟩
  · exact blockStep_aSynackRecvIssue hp
  · exact blockStep_pSynRecvIssue hp
  · exact blockStep_pAckRecvIssue hp

theorem issueRecv_deadline (h : s.deadline = true) (wait : Phase) : issueRecv wait s = fail .handshakeTimeout s := if_pos h

theorem issueRecv_noDeadline (h : s.deadline = false) (wait : Phase) :
    issueRecv wait s = { request (.recv s.argSession s.params.rxBufBytes) s with phase := wait } :=
  if_neg (Bool.eq_false_iff.1 h)

/-- Settles O33, by the level of `DEADLINE`. -/
theorem issueStepsCheckTheDeadlineFirst : Obligations.IssueStepsCheckTheDeadlineFirst := by
  intro s issue wait accepts hphase hp
  rw [blockStep_issue hphase hp]
  refine ⟨fun hdl => ?_, fun hdl => ?_⟩
  · rw [issueRecv_deadline hdl]; rfl
  · rw [issueRecv_noDeadline hdl]; rfl

/-! ## The checksum and the send request (O30) -/

/-- The send request carries the encoding that stands in `TXBUF` (41_handshake_active.md R203). -/
theorem requestSend_eq (h : s.TxEncoded) (dst : Addr) :
    requestSend dst s = request (.send s.argSession dst s.params.protoNum (encodeFn s.txseg)) s := by
  rw [requestSend, txValid_eq h]

/-- Settles O30: `INSERT_CK` keeps `TXBUF` an encoding, which the request copies. -/
theorem handshakeChecksumStepsSendTheSegment : Obligations.HandshakeChecksumStepsSendTheSegment := by
  rintro c s _ henc hr rfl
  have henc' : (insertCk c (clearPort s)).TxEncoded := insertCk_txEncoded c (s := clearPort s) henc
  refine ⟨(insertCk c s).txbuf, read_insertCk_txbuf c s, fun hp => ?syn, fun hp => ?ack, fun hp => ?synack⟩
  case syn =>
    have henc'' : ({ insertCk c (clearPort s) with connState := .synSent } : State).TxEncoded := henc'
    rw [blockStep_aSynCsumWait hp hr, synCsumRespond, requestSend_eq henc'']; rfl
  case ack => rw [blockStep_aAckCsumWait hp hr, ackCsumRespond, requestSend_eq henc']; rfl
  case synack => rw [blockStep_pSynackCsumWait hp hr, synackCsumRespond, requestSend_eq henc']; rfl

/-! ## The GO step of CONNECT (O29) -/

/-- The binding of a segment `S` without options stores a header of 20 bytes and asks for its checksum (40_codec.md R170). The
stored buffer is named `m`: comparing two `Memory.writeBytes` by computation does not end in good time. -/
theorem ckbind_header20 {S : Segment} (hS : { s.txseg with checksum := 0 } = S) (hdoff : S.doff = 5) (dst : Addr) :
    ∃ m, (∀ o, Memory.read m o = if o < 20 then (encodeFn S)[o]? else Memory.read s.txbuf o) ∧
      ckbind dst s =
        request (.csum s.argSession dst s.params.protoNum (encodeFn S)) { s with txseg := S, txbuf := m, txlen := 20 } := by
  have hread := read_store_encodeFn s.txbuf (S := S) (by rw [hdoff]; decide)
  rw [hdoff] at hread
  refine ⟨Memory.writeBytes s.txbuf 0 (encodeFn S), hread, ?_⟩
  rw [ckbind, hS, headerLen, hdoff]
  rfl

/-- Settles O29: the draw is that of the step, and a header of 20 bytes is stored and asked for. -/
theorem connectBuildsTheSyn : Obligations.ConnectBuildsTheSyn := by
  intro ie s hp
  obtain ⟨m, hread, hbind⟩ := ckbind_header20
    (s := { prologue { s with ie := ie, cmd := 0x4 } with
      connValid := false, connState := .closed, isnReg := isnDraw s
      txseg := synSegment s.params.defaultWindow s.argLport s.argPort (isnDraw s) }) rfl rfl s.argAddr
  refine ⟨isnDraw s, _, m, fun w hw => isnDraw_some hw, rfl, ?_, hread⟩
  rw [exec_idle (i := .connect ie) rfl hp]
  exact congrArg (fun u => Host.Outcome.next (endStep { u with phase := .aSynCsumWait })) hbind

/-! ## The steps that consume a received segment (O36) -/

/-- What is received is stored at the start of `RXBUF` (60_exceptions.md R308). -/
theorem rxStore_received {r : Word} {bytes : List Byte} (h : Received s.params r bytes) :
    ∃ m, (∀ o, Memory.read m o = if o < bytes.length then bytes[o]? else Memory.read s.rxbuf o) ∧
      rxStore r bytes s = { s with rxlen := BitVec.ofNat 16 bytes.length, rxbuf := m } := by
  obtain ⟨-, hlen⟩ := h
  have hcount : rxCount s.params r = bytes.length := hlen.symm
  refine ⟨Memory.writeBytes s.rxbuf 0 bytes, fun o => ?_, ?_⟩
  · rw [read_writeBytes]
    by_cases ho : o < bytes.length
    · rw [dif_pos ⟨Nat.zero_le o, ho⟩, if_pos ho, List.getElem?_eq_getElem ho]; rfl
    · rw [dif_neg fun h => ho h.2, if_neg ho]
  · rw [rxStore, hcount, List.take_length]

/-- The bytes of a response are those the same step decodes (60_exceptions.md R308). -/
theorem rxValid_received {r : Word} {bytes : List Byte} (h : Received s.params r bytes) :
    rxValid (rxStore r bytes s) = bytes :=
  let ⟨_, hlen⟩ := h
  rxValid_rxStore s hlen

variable {test : Segment → State → Bool} {acc : Segment → State → State} {r : Word} {bytes : List Byte}

/-- A segment that passes the test is stored, loaded and accepted (41_handshake_active.md R206). -/
theorem recvRespond_accepted {d : Segment} (hrecv : Received s.params r bytes) (hd : decodeFn bytes = some d)
    (hm : test d (loadRx d (rxStore r bytes s)) = true) (back : Phase) :
    ∃ m, (∀ o, Memory.read m o = if o < bytes.length then bytes[o]? else Memory.read s.rxbuf o) ∧
      recvRespond back test acc r bytes s =
        acc d { s with rxlen := BitVec.ofNat 16 bytes.length, rxbuf := m, rxseg := d } := by
  obtain ⟨m, hread, hstore⟩ := rxStore_received hrecv
  have hvalid := rxValid_received hrecv
  obtain ⟨hpos, -⟩ := hrecv
  refine ⟨m, hread, ?_⟩
  rcases recvRespond_cases back test acc r bytes s with ⟨hr, -⟩ | ⟨-, hd', -⟩ | ⟨d', -, hd', hm', -⟩ | ⟨d', -, hd', -, e⟩
  · rw [nonPositive_eq_false hpos] at hr
    cases hr
  all_goals
    rw [hvalid, hd] at hd'
    cases hd'
  · rw [hm] at hm'
    cases hm'
  · rw [e, hstore]
    rfl

/-- The accept step of active open (41_handshake_active.md R209, R210). -/
theorem acceptSynack_eq (d : Segment) (s : State) :
    ∃ S m, S = ackSegment s.params.defaultWindow s.argLport s.argPort d ∧
      (∀ o, Memory.read m o = if o < 20 then (encodeFn S)[o]? else Memory.read s.txbuf o) ∧
      acceptSynack d s =
        { s with
          peerIsn := d.seq, peerPort := d.srcPort, txseg := S, txbuf := m, txlen := 20
          outreq := some (.csum s.argSession s.argAddr s.params.protoNum (encodeFn S)), response := none
          phase := .aAckCsumWait } := by
  obtain ⟨m, hread, hbind⟩ := ckbind_header20
    (s := { s with
      peerIsn := d.seq, peerPort := d.srcPort
      txseg := ackSegment s.params.defaultWindow s.argLport s.argPort d }) rfl rfl s.argAddr
  exact ⟨_, m, rfl, hread, congrArg (fun u => { u with phase := .aAckCsumWait }) hbind⟩

/-- Settles O36: the segment passes the test, and the accept step binds the ACK. -/
theorem acceptedSynackBuildsTheAck : Obligations.AcceptedSynackBuildsTheAck := by
  intro s r bytes a d hp hr hrecv hd hfor
  obtain ⟨mr, hmr, hrespond⟩ := recvRespond_accepted (s := clearPort s) (test := matchSynack) (acc := acceptSynack)
    hrecv hd ((matchSynack_iff _ _).2 hfor) .aSynackRecvIssue
  obtain ⟨S, mt, hS, hmt, haccept⟩ := acceptSynack_eq d
    { clearPort s with rxlen := BitVec.ofNat 16 bytes.length, rxbuf := mr, rxseg := d }
  refine ⟨S, mr, mt, hS, hmr, hmt, ?_⟩
  rw [blockStep_aSynackRecvWait hp hr, hrespond, haccept]
  rfl

/-! ## Dropped segments -/

variable {issue wait : Phase} {accepts : Segment → Prop} {a : Addr}

/-- A malformed segment, and one that fails the test, is stored, a segment that decodes is loaded, and the discard follows
(60_exceptions.md R309, R311). -/
theorem recvRespond_dropped (hrecv : Received s.params r bytes)
    (hdrop : ∀ d, decodeFn bytes = some d → ¬test d (loadRx d (rxStore r bytes s)) = true) (back : Phase) :
    ∃ m, (∀ o, Memory.read m o = if o < bytes.length then bytes[o]? else Memory.read s.rxbuf o) ∧
      recvRespond back test acc r bytes s =
        discard back { s with
          rxlen := BitVec.ofNat 16 bytes.length, rxbuf := m, rxseg := (decodeFn bytes).getD s.rxseg
          malformedSeen := s.malformedSeen || (decodeFn bytes).isNone } := by
  obtain ⟨m, hread, hstore⟩ := rxStore_received hrecv
  have hvalid := rxValid_received hrecv
  obtain ⟨hpos, -⟩ := hrecv
  refine ⟨m, hread, ?_⟩
  rcases recvRespond_cases back test acc r bytes s with ⟨hr, -⟩ | ⟨-, hd, e⟩ | ⟨d, -, hd, -, e⟩ | ⟨d, -, hd, hm, -⟩
  · rw [nonPositive_eq_false hpos] at hr
    cases hr
  all_goals rw [hvalid] at hd
  · rw [e, hstore, hd, Option.isNone_none, Bool.or_true]; rfl
  · rw [e, hstore, hd, Option.isNone_some, Bool.or_false]; rfl
  · exact absurd hm (hdrop d hd)

/-- The response step of a receive phase, with its test and its accept step. -/
theorem blockStep_receive (hphase : s.ReceivePhase issue wait accepts) (hp : s.phase = wait)
    (hr : s.response = some (.recv r bytes a)) :
    ∃ test acc, (∀ d, test d (loadRx d (rxStore r bytes (clearPort s))) = true ↔ accepts d) ∧
      blockStep s = endStep (recvRespond issue test acc r bytes (clearPort s)) := by
  rcases hphase with ⟨rfl, rfl, rfl⟩ | ⟨rfl, rfl, rfl⟩ | ⟨rfl, rfl, rfl⟩
  · exact ⟨_, _, fun d => matchSynack_iff d _, blockStep_aSynackRecvWait hp hr⟩
  · exact ⟨_, _, fun d => matchSyn_iff d _, blockStep_pSynRecvWait hp hr⟩
  · exact ⟨_, _, fun d => matchAck_iff d _, blockStep_pAckRecvWait hp hr⟩

/-- The response step of a receive phase on bytes it drops. -/
theorem blockStep_dropped (hphase : s.ReceivePhase issue wait accepts) (hp : s.phase = wait)
    (hr : s.response = some (.recv r bytes a)) (hrecv : Received s.params r bytes) (hdrop : Dropped accepts bytes) :
    ∃ m, (∀ o, Memory.read m o = if o < bytes.length then bytes[o]? else Memory.read s.rxbuf o) ∧
      blockStep s = endStep (discard issue { clearPort s with
        rxlen := BitVec.ofNat 16 bytes.length, rxbuf := m, rxseg := (decodeFn bytes).getD s.rxseg
        malformedSeen := s.malformedSeen || (decodeFn bytes).isNone }) := by
  obtain ⟨test, acc, htest, hstep⟩ := blockStep_receive hphase hp hr
  obtain ⟨m, hread, e⟩ := recvRespond_dropped (s := clearPort s) (acc := acc) hrecv
    (fun d hd hm => hdrop d hd ((htest d).1 hm)) issue
  exact ⟨m, hread, hstep.trans (congrArg endStep e)⟩

/-! ## Answers, and attempts to receive -/

/-- The answer to the outstanding request is delivered and consumed (20_memory.md R86). -/
theorem answer_eq {x : Response} (hport : s.outreq.map Request.port = some x.port) (hnone : s.response = none)
    (hshape : x.shapeOk s.params = true) : answer x s = blockStep { s with response := some (x.keep s.params) } := by
  rw [answer, deliver, if_pos ((canAnswer_iff x s).2 ⟨hshape, hnone, hport⟩)]

theorem shapeOk_of_received {P : Params} (h : Received P r bytes) (a : Addr) :
    (Response.recv r bytes a).shapeOk P = true := by
  obtain ⟨hpos, hlen⟩ := h
  simp [Response.shapeOk, nonPositive_eq_false hpos, hlen, rxCount]

/-- An attempt to receive: the request is placed and answered, and the response step is left to take. -/
theorem receiveAttemptDrawing_eq (hphase : s.ReceivePhase issue wait accepts) (hp : s.phase = issue)
    (hdl : s.deadline = false) (hrecv : Received s.params r bytes) (n : Option Word) (a : Addr) :
    receiveAttemptDrawing n (.recv r bytes a) s =
      blockStep { s with
        outreq := some (.recv s.argSession s.params.rxBufBytes), response := some (.recv r bytes (keepAddr s.params a))
        nextIsn := n, phase := wait } := by
  obtain ⟨-, hissue⟩ := issueStepsCheckTheDeadlineFirst s issue wait accepts hphase hp
  rw [receiveAttemptDrawing, hissue hdl]
  exact answer_eq rfl rfl (shapeOk_of_received hrecv a)

theorem receiveAttempt_eq (hphase : s.ReceivePhase issue wait accepts) (hp : s.phase = issue)
    (hdl : s.deadline = false) (hrecv : Received s.params r bytes) (a : Addr) :
    receiveAttempt (.recv r bytes a) s =
      blockStep { s with
        outreq := some (.recv s.argSession s.params.rxBufBytes), response := some (.recv r bytes (keepAddr s.params a))
        nextIsn := none, phase := wait } := by
  rw [← receiveAttemptDrawing_eq hphase hp hdl hrecv, receiveAttempt, receiveAttemptDrawing, blockStep_issue hphase hp]
  rfl

/-- From `s` to `t` no more differs than what a dropped segment and the ports write. -/
def DropsOnly (s t : State) : Prop :=
  { t with
    rxlen := s.rxlen, rxbuf := s.rxbuf, rxseg := s.rxseg, malformedSeen := s.malformedSeen, discards := s.discards
    retryLeft := s.retryLeft, outreq := s.outreq, response := s.response, nextIsn := s.nextIsn } = s

theorem dropsOnly_trans {t u : State} (hst : DropsOnly s t) (htu : DropsOnly t u) : DropsOnly s u := by
  unfold DropsOnly at *
  rw [← htu] at hst
  exact hst

theorem receivePhase_of_dropsOnly {t : State} (h : DropsOnly s t) (hphase : s.ReceivePhase issue wait accepts) :
    t.ReceivePhase issue wait accepts := by
  rw [← h] at hphase
  exact hphase

/-- One dropped segment, with a discard left for it. -/
theorem receiveAttempt_dropped {x : Response} (hphase : s.ReceivePhase issue wait accepts) (hp : s.phase = issue)
    (hdl : s.deadline = false) (hdrop : DroppedAnswer s.params accepts x) (hleft : s.retryLeft ≠ 0) :
    DropsOnly s (receiveAttempt x s) ∧ (receiveAttempt x s).retryLeft = s.retryLeft - 1 ∧
      (receiveAttempt x s).discards = nextDiscards s.discards := by
  obtain ⟨r, bytes, a, rfl, hrecv, hbytes⟩ := hdrop
  obtain ⟨m, -, e⟩ := blockStep_dropped (s := { s with
    outreq := some (.recv s.argSession s.params.rxBufBytes), response := some (.recv r bytes (keepAddr s.params a))
    nextIsn := none, phase := wait }) hphase rfl rfl hrecv hbytes
  rw [receiveAttempt_eq hphase hp hdl hrecv, e, discard, if_neg (by exact hleft)]
  subst hp
  exact ⟨rfl, rfl, rfl⟩

/-- Counting one and then `n`, or `n + 1` at once, saturates at the same value (60_exceptions.md R309). -/
theorem saturate_add (d n : Nat) : min (min (d + 1) 65535 + n) 65535 = min (d + (n + 1)) 65535 := by omega

/-- Segments dropped within the budget: the receive phase goes on, and each is counted (60_exceptions.md R309). -/
theorem receiveAttempts_dropped {dropped : List Response} (hphase : s.ReceivePhase issue wait accepts)
    (hp : s.phase = issue) (hdl : s.deadline = false) (hdrop : ∀ x ∈ dropped, DroppedAnswer s.params accepts x)
    (hlen : dropped.length ≤ s.retryLeft.toNat) :
    DropsOnly s (receiveAttempts dropped s) ∧
      (receiveAttempts dropped s).retryLeft.toNat = s.retryLeft.toNat - dropped.length ∧
      (receiveAttempts dropped s).discards.toNat = min (s.discards.toNat + dropped.length) 65535 := by
  induction dropped generalizing s with
  | nil =>
    have := s.discards.isLt
    exact ⟨rfl, rfl, by simp only [receiveAttempts, List.foldl_nil, List.length_nil]; omega⟩
  | cons x rest ih =>
    rw [List.length_cons] at hlen ⊢
    have hleft : s.retryLeft ≠ 0 := by intro h; simp [h] at hlen
    obtain ⟨hframe, hretry, hcount⟩ := receiveAttempt_dropped hphase hp hdl (hdrop x List.mem_cons_self) hleft
    have kept {β : Type} (g : State → β) := congrArg g hframe
    have hretry' : (receiveAttempt x s).retryLeft.toNat = s.retryLeft.toNat - 1 := by rw [hretry]; bv_omega
    obtain ⟨hrest, hrestRetry, hrestCount⟩ := ih (receivePhase_of_dropsOnly hframe hphase) ((kept State.phase).trans hp)
      ((kept State.deadline).trans hdl)
      (fun y hy => (kept State.params).symm ▸ hdrop y (List.mem_cons_of_mem x hy)) (by omega)
    refine ⟨dropsOnly_trans hframe hrest, hrestRetry.trans (by omega), hrestCount.trans ?_⟩
    rw [hcount, toNat_nextDiscards, saturate_add]

/-! ## The rounds of active open (O58) -/

/-- The SYN is sent (41_handshake_active.md R204). -/
theorem answer_synSent (hp : s.phase = .aSynSendWait) (hport : s.outreq.map Request.port = some .send)
    (hnone : s.response = none) (hpos : 0 < r.toInt) :
    answer (.send r) s =
      { s with outreq := none, response := none, nextIsn := none, retryLeft := s.argBudget, phase := .aSynackRecvIssue } := by
  obtain ⟨hstep, -⟩ := successfulSendStartsTheReceivePhase r { s with response := some (.send r) } rfl hpos
  exact (answer_eq hport hnone rfl).trans (hstep hp)

/-- The final ACK is sent (41_handshake_active.md R213, R214). -/
theorem answer_ackSent (hp : s.phase = .aAckSendWait) (hport : s.outreq.map Request.port = some .send)
    (hnone : s.response = none) (hpos : 0 < r.toInt) :
    answer (.send r) s =
      { s with
        connState := .established, connLocalSeq := s.isnReg, connRemoteAcked := s.peerIsn
        connSession := s.argSession, connValid := true, outreq := none, response := none, nextIsn := none
        phase := .idle, err := .none, failState := .closed, done := true } :=
  (answer_eq hport hnone rfl).trans (sentAckCompletesConnect { s with response := some (.send r) } r hp rfl hpos)

/-- A header of 20 bytes that has been stored is the encoding of `TXSEG`. -/
theorem txEncoded_of_header20 {m : Memory} (hdoff : s.txseg.doff = 5) (hlen : s.txlen = 20)
    (hread : ∀ o, Memory.read s.txbuf o = if o < 20 then (encodeFn s.txseg)[o]? else Memory.read m o) :
    s.TxEncoded := by
  have h20 : headerLen s.txseg = 20 := by rw [headerLen, hdoff]; rfl
  refine ⟨by rw [hdoff]; decide, by rw [hlen, h20]; rfl, fun o ho => ?_⟩
  rw [hread, if_pos (h20 ▸ ho)]

/-- CONNECT up to its SYN: the GO step and the answered checksum (41_handshake_active.md R201 to R203). -/
theorem connect_sendsSyn {ie : Bool} {g : State} (hp : s.phase = .idle) (hgo : exec (.connect ie) s = .next g) (c : Half) :
    (∀ v, s.nextIsn = some v → g.isnReg = v) ∧ ∃ S m,
      S = { synSegment s.params.defaultWindow s.argLport s.argPort g.isnReg with checksum := c } ∧
      answer (.csum c) g =
        { s with
          ie := ie, cmd := 0x4, done := false, err := .none, failState := .closed, discards := 0
          connValid := false, connState := .synSent, isnReg := g.isnReg, txseg := S, txbuf := m, txlen := 20
          outreq := some (.send s.argSession s.argAddr s.params.protoNum (encodeFn S)), response := none
          nextIsn := none, phase := .aSynSendWait } := by
  obtain ⟨v, S, m, hv, rfl, hgo', hread⟩ := connectBuildsTheSyn ie s hp
  have hg := Host.Outcome.next.inj (hgo.symm.trans hgo')
  have henc : g.TxEncoded := by rw [hg]; exact txEncoded_of_header20 rfl rfl hread
  obtain ⟨m', -, hstep, -⟩ := handshakeChecksumStepsSendTheSegment c { g with response := some (.csum c) } _ henc rfl rfl
  subst hg
  exact ⟨hv, _, m', rfl, (answer_eq rfl rfl rfl).trans (hstep rfl)⟩

/-- The answered SYN-ACK up to the final ACK: the receive attempt and the answered checksum (41_handshake_active.md R205 to
R212). -/
theorem synack_sendsAck {d : Segment} (hp : s.phase = .aSynackRecvIssue) (hdl : s.deadline = false)
    (hrecv : Received s.params r bytes) (hd : decodeFn bytes = some d)
    (hfor : SynackFor s.params.activePortCheck s.argPort s.argLport s.isnReg d) (a : Addr) (c : Half) :
    ∃ S mr mt, S = { ackSegment s.params.defaultWindow s.argLport s.argPort d with checksum := c } ∧
      answer (.csum c) (receiveAttempt (.recv r bytes a) s) =
        { s with
          rxlen := BitVec.ofNat 16 bytes.length, rxbuf := mr, rxseg := d, peerIsn := d.seq, peerPort := d.srcPort
          txseg := S, txbuf := mt, txlen := 20
          outreq := some (.send s.argSession s.argAddr s.params.protoNum (encodeFn S)), response := none
          nextIsn := none, phase := .aAckSendWait } := by
  obtain ⟨S, mr, mt, hS, -, hread, haccept⟩ := acceptedSynackBuildsTheAck { s with
    outreq := some (.recv s.argSession s.params.rxBufBytes), response := some (.recv r bytes (keepAddr s.params a))
    nextIsn := none, phase := .aSynackRecvWait } r bytes _ d rfl rfl hrecv hd hfor
  rw [← receiveAttempt_eq (.inl ⟨rfl, rfl, rfl⟩) hp hdl hrecv] at haccept
  generalize receiveAttempt (.recv r bytes a) s = u at *
  have henc : u.TxEncoded := by rw [haccept]; exact txEncoded_of_header20 (by rw [hS]) rfl hread
  obtain ⟨m', -, -, hstep, -⟩ := handshakeChecksumStepsSendTheSegment c { u with response := some (.csum c) } _ henc rfl rfl
  subst haccept hS
  exact ⟨_, mr, m', rfl, (answer_eq rfl rfl rfl).trans (hstep rfl)⟩

/-- CONNECT from its receive phase on, whatever began it: the drops leave the phase as it was but for its counts, and the
accepted SYN-ACK is acknowledged (41_handshake_active.md R205 to R214). -/
theorem connectReceivePhase_establishes {c : Half} {r₂ : Word} {dropped : List Response} {d : Segment} {t : State}
    (ht : t = answer (.send r₂) (answer (.csum c) (receiveAttempt (.recv r bytes a) (receiveAttempts dropped s))))
    (hp : s.phase = .aSynackRecvIssue) (hdl : s.deadline = false)
    (hdrop : ∀ x ∈ dropped,
      DroppedAnswer s.params (SynackFor s.params.activePortCheck s.argPort s.argLport s.isnReg) x)
    (hlen : dropped.length ≤ s.retryLeft.toNat) (hrecv : Received s.params r bytes) (hd : decodeFn bytes = some d)
    (hfor : SynackFor s.params.activePortCheck s.argPort s.argLport s.isnReg d) (hpos : 0 < r₂.toInt) :
    (t.phase = .idle ∧ t.done = true ∧ t.err = .none ∧ t.failState = .closed ∧ t.connState = .established ∧
      t.connValid = true) ∧
    t.connLocalSeq = s.isnReg ∧ t.connRemoteAcked = d.seq ∧ t.connSession = s.argSession ∧
      t.discards.toNat = min (s.discards.toNat + dropped.length) 65535 ∧ t.ie = s.ie := by
  obtain ⟨hframe, -, hcount⟩ := receiveAttempts_dropped (.inl ⟨rfl, rfl, rfl⟩) hp hdl hdrop hlen
  generalize receiveAttempts dropped s = w at *
  have kept {β : Type} (f : State → β) := congrArg f hframe
  have hparams : w.params = s.params := kept State.params
  have hport : w.argPort = s.argPort := kept State.argPort
  have hlport : w.argLport = s.argLport := kept State.argLport
  have hisn : w.isnReg = s.isnReg := kept State.isnReg
  rw [← hparams] at hrecv
  rw [← hparams, ← hport, ← hlport, ← hisn] at hfor
  obtain ⟨S, mr, mt, -, hack⟩ := synack_sendsAck (s := w) ((kept State.phase).trans hp) ((kept State.deadline).trans hdl)
    hrecv hd hfor a c
  rw [hack, answer_ackSent rfl rfl rfl hpos] at ht
  subst ht
  exact ⟨⟨rfl, rfl, rfl, rfl, rfl, rfl⟩, hisn, rfl, kept State.argSession, hcount, kept State.ie⟩

/-- Settles O58: the SYN is sent, and the receive phase runs to its end. -/
theorem connectReachesEstablished : Obligations.ConnectReachesEstablished := by
  intro ie s g c₁ c₂ r₁ r₂ r dropped bytes a d hp hdl hgo hr₁ hr₂ hdrop hlen hrecv hd hfor w t hw ht
  obtain ⟨hdraw, S, m, -, hsyn⟩ := connect_sendsSyn hp hgo c₁
  subst hw
  have hdone := connectReceivePhase_establishes (d := d) ht
  rw [hsyn, answer_synSent rfl rfl rfl hr₁] at hdone
  obtain ⟨⟨hphase, hdn, herr, hfs, hstate, hvalid⟩, hseq, hacked, hsess, hcount, hie⟩ :=
    hdone rfl hdl hdrop hlen hrecv hd hfor hr₂
  have hdiscards : t.discards.toNat = dropped.length := by
    have := s.argBudget.isLt
    have hmin : t.discards.toNat = min (0 + dropped.length) 65535 := hcount
    omega
  have hirq : t.irq = ie := by rw [State.irq, hdn, hie, Bool.true_and]
  exact ⟨hphase, hdn, herr, hfs, hstate, hvalid, hseq, hacked, hsess, hdiscards, hirq, fun v h => hseq.trans (hdraw v h)⟩

/-! ## The rounds of passive open -/

/-- The GO step of LISTEN (42_handshake_passive.md R241). -/
theorem exec_listen_idle (ie : Bool) (hp : s.phase = .idle) :
    exec (.listen ie) s = .next { s with
      ie := ie, cmd := 0x5, done := false, err := .none, failState := .closed, discards := 0
      connValid := false, connState := .listen, retryLeft := s.argBudget, nextIsn := none, phase := .pSynRecvIssue } :=
  exec_idle (i := .listen ie) rfl hp

/-- The accept step of the SYN (42_handshake_passive.md R246, R242). -/
theorem acceptSyn_eq (a : Addr) (d : Segment) (s : State) :
    ∃ S m, S = synackSegment s.params.defaultWindow s.argPort (isnDraw s) d ∧
      (∀ o, Memory.read m o = if o < 20 then (encodeFn S)[o]? else Memory.read s.txbuf o) ∧
      acceptSyn a d s =
        { s with
          peerIsn := d.seq, peerPort := d.srcPort, peerAddr := a
          isnReg := isnDraw s, txseg := S, txbuf := m, txlen := 20
          outreq := some (.csum s.argSession a s.params.protoNum (encodeFn S)), response := none
          phase := .pSynackCsumWait } := by
  obtain ⟨m, hread, hbind⟩ := ckbind_header20
    (s := { s with
      peerIsn := d.seq, peerPort := d.srcPort, peerAddr := a, isnReg := isnDraw s
      txseg := synackSegment s.params.defaultWindow s.argPort (isnDraw s) d }) rfl rfl a
  exact ⟨_, m, rfl, hread, congrArg (fun u => { u with phase := .pSynackCsumWait }) hbind⟩

/-- The response step on an accepted SYN, which draws the number of the SYN-ACK (42_handshake_passive.md R244 to R246). -/
theorem blockStep_acceptedSyn {d : Segment} (hp : s.phase = .pSynRecvWait) (hr : s.response = some (.recv r bytes a))
    (hrecv : Received s.params r bytes) (hd : decodeFn bytes = some d) (hfor : SynFor s.argPort d) :
    ∃ S mr mt, S = synackSegment s.params.defaultWindow s.argPort (isnDraw s) d ∧
      (∀ o, Memory.read mr o = if o < bytes.length then bytes[o]? else Memory.read s.rxbuf o) ∧
      (∀ o, Memory.read mt o = if o < 20 then (encodeFn S)[o]? else Memory.read s.txbuf o) ∧
      blockStep s =
        { s with
          rxlen := BitVec.ofNat 16 bytes.length, rxbuf := mr, rxseg := d, peerIsn := d.seq, peerPort := d.srcPort
          peerAddr := a, isnReg := isnDraw s, txseg := S, txbuf := mt, txlen := 20
          outreq := some (.csum s.argSession a s.params.protoNum (encodeFn S)), response := none, nextIsn := none
          phase := .pSynackCsumWait } := by
  obtain ⟨mr, hmr, hrespond⟩ := recvRespond_accepted (s := clearPort s) (test := matchSyn) (acc := acceptSyn a)
    hrecv hd ((matchSyn_iff _ _).2 hfor) .pSynRecvIssue
  obtain ⟨S, mt, hS, hmt, haccept⟩ := acceptSyn_eq a d
    { clearPort s with rxlen := BitVec.ofNat 16 bytes.length, rxbuf := mr, rxseg := d }
  refine ⟨S, mr, mt, hS, hmr, hmt, ?_⟩
  rw [blockStep_pSynRecvWait hp hr, hrespond, haccept]
  rfl

/-- The answered SYN up to the SYN-ACK: the receive attempt and the answered checksum (42_handshake_passive.md R243 to
R248). -/
theorem syn_sendsSynack {d : Segment} (hp : s.phase = .pSynRecvIssue) (hdl : s.deadline = false)
    (hrecv : Received s.params r bytes) (hd : decodeFn bytes = some d) (hfor : SynFor s.argPort d) (n : Option Word)
    (a : Addr) (c : Half) :
    ∃ v S mr mt, (∀ w, n = some w → v = w) ∧
      S = { synackSegment s.params.defaultWindow s.argPort v d with checksum := c } ∧
      answer (.csum c) (receiveAttemptDrawing n (.recv r bytes a) s) =
        { s with
          rxlen := BitVec.ofNat 16 bytes.length, rxbuf := mr, rxseg := d, peerIsn := d.seq, peerPort := d.srcPort
          peerAddr := keepAddr s.params a, isnReg := v, txseg := S, txbuf := mt, txlen := 20
          outreq := some (.send s.argSession (keepAddr s.params a) s.params.protoNum (encodeFn S)), response := none
          nextIsn := none, phase := .pSynackSendWait } := by
  obtain ⟨S, mr, mt, hS, -, hread, haccept⟩ := blockStep_acceptedSyn (s := { s with
    outreq := some (.recv s.argSession s.params.rxBufBytes), response := some (.recv r bytes (keepAddr s.params a))
    nextIsn := n, phase := .pSynRecvWait }) rfl rfl hrecv hd hfor
  rw [← receiveAttemptDrawing_eq (.inr (.inl ⟨rfl, rfl, rfl⟩)) hp hdl hrecv] at haccept
  generalize receiveAttemptDrawing n (.recv r bytes a) s = u at *
  have henc : u.TxEncoded := by rw [haccept]; exact txEncoded_of_header20 (by rw [hS]; rfl) rfl hread
  obtain ⟨m', -, -, -, hstep⟩ := handshakeChecksumStepsSendTheSegment c { u with response := some (.csum c) } _ henc rfl rfl
  subst haccept hS
  exact ⟨_, _, mr, m', fun w hw => isnDraw_some hw, rfl, (answer_eq rfl rfl rfl).trans (hstep rfl)⟩

/-- The SYN-ACK is sent (42_handshake_passive.md R249). -/
theorem answer_synackSent (hp : s.phase = .pSynackSendWait) (hport : s.outreq.map Request.port = some .send)
    (hnone : s.response = none) (hpos : 0 < r.toInt) :
    answer (.send r) s =
      { s with
        outreq := none, response := none, nextIsn := none, connState := .synReceived, retryLeft := s.argBudget
        phase := .pAckRecvIssue } := by
  obtain ⟨-, hstep⟩ := successfulSendStartsTheReceivePhase r { s with response := some (.send r) } rfl hpos
  exact (answer_eq hport hnone rfl).trans (hstep hp)

/-- The response step on an accepted final ACK (42_handshake_passive.md R251 to R254). -/
theorem blockStep_acceptedAck {d : Segment} (hp : s.phase = .pAckRecvWait) (hr : s.response = some (.recv r bytes a))
    (hrecv : Received s.params r bytes) (hd : decodeFn bytes = some d) (hfor : AckFor s.argPort s.isnReg s.peerIsn d) :
    ∃ m, (∀ o, Memory.read m o = if o < bytes.length then bytes[o]? else Memory.read s.rxbuf o) ∧
      blockStep s =
        { s with
          rxlen := BitVec.ofNat 16 bytes.length, rxbuf := m, rxseg := d
          outreq := some (.sess s.argSession s.argAddr s.argPort s.params.protoNum s.peerAddr s.peerPort)
          response := none, nextIsn := none, phase := .pSessWait } := by
  obtain ⟨m, hread, hrespond⟩ := recvRespond_accepted (s := clearPort s) (test := matchAck) (acc := acceptAck)
    hrecv hd ((matchAck_iff _ _).2 hfor) .pAckRecvIssue
  refine ⟨m, hread, ?_⟩
  rw [blockStep_pAckRecvWait hp hr, hrespond]
  rfl

/-- The session that is opened completes LISTEN (42_handshake_passive.md R255, R256). -/
theorem answer_sessionOpened (hp : s.phase = .pSessWait) (hport : s.outreq.map Request.port = some .sess)
    (hnone : s.response = none) (h : Session) :
    answer (.sess true h) s =
      { s with
        connState := .established, connLocalSeq := s.isnReg, connRemoteAcked := s.peerIsn + 1
        connSession := keepSession s.params h, connValid := true, outreq := none, response := none, nextIsn := none
        phase := .idle, err := .none, failState := .closed, done := true } := by
  rw [answer_eq hport hnone rfl]
  exact blockStep_pSessWait (s := { s with response := some (.sess true (keepSession s.params h)) }) hp rfl

/-- LISTEN from its second receive phase on: the final ACK is accepted and the session opened (42_handshake_passive.md R250
to R256). -/
theorem ack_establishes {d : Segment} (hp : s.phase = .pAckRecvIssue) (hdl : s.deadline = false)
    (hrecv : Received s.params r bytes) (hd : decodeFn bytes = some d)
    (hfor : AckFor s.argPort s.isnReg s.peerIsn d) (a : Addr) (h : Session) :
    ∃ m, answer (.sess true h) (receiveAttempt (.recv r bytes a) s) =
      { s with
        rxlen := BitVec.ofNat 16 bytes.length, rxbuf := m, rxseg := d
        connState := .established, connLocalSeq := s.isnReg, connRemoteAcked := s.peerIsn + 1
        connSession := keepSession s.params h, connValid := true, outreq := none, response := none, nextIsn := none
        phase := .idle, err := .none, failState := .closed, done := true } := by
  obtain ⟨m, -, haccept⟩ := blockStep_acceptedAck (s := { s with
    outreq := some (.recv s.argSession s.params.rxBufBytes), response := some (.recv r bytes (keepAddr s.params a))
    nextIsn := none, phase := .pAckRecvWait }) rfl rfl hrecv hd hfor
  rw [receiveAttempt_eq (.inr (.inr ⟨rfl, rfl, rfl⟩)) hp hdl hrecv, haccept, answer_sessionOpened rfl rfl rfl]
  exact ⟨m, rfl⟩

/-! ## Two blocks (O60) -/

/-- A segment without options is received as it was sent: every buffer has room for its 20 bytes (00_scope.md R9, 40_codec.md
R167). -/
theorem received_of_sent {S : Segment} (P : Params) (hdoff : S.doff = 5) (hopt : S.opt = Segment.zero.opt) :
    Received P 20 (encodeFn S) ∧ decodeFn (encodeFn S) = some S := by
  obtain ⟨-, h60, -⟩ := P.rxCapacity.property
  obtain ⟨hdecode, -⟩ := segmentDecodeAndEncodeAgree
  refine ⟨⟨by decide, ?_⟩, hdecode S (by rw [hdoff]; decide) fun i hi _ => ?_⟩
  · rw [length_encodeFn, hdoff]
    exact (Nat.min_eq_left (Nat.le_trans (by decide) h60)).symm
  · rw [hopt]
    exact Vector.getElem_replicate hi

/-- A SYN-ACK between the two ports passes every port test but ARG_DST, which needs them to be one (41_handshake_active.md
R208). -/
theorem portsFor_of_ports {chk : ActivePortCheck} {argPort argLport : Half} {d : Segment} (hsrc : d.srcPort = argPort)
    (hdst : d.dstPort = argLport) (harg : chk = .argDst → argLport = argPort) : PortsFor chk argPort argLport d := by
  cases chk
  case peerSrc => exact hsrc
  case localDst => exact hdst
  case argDst => exact hdst.trans (harg rfl)
  case both => exact ⟨hsrc, hdst⟩

/-- A SYN passes the test of the block whose port it is for (41_handshake_active.md R202, 42_handshake_passive.md R245). -/
theorem synFor_synSegment (window lport port : Half) (isn : Word) (c : Half) :
    SynFor port { synSegment window lport port isn with checksum := c } :=
  ⟨(by decide : flagSYN.getLsbD 1 = true), (by decide : flagSYN.getLsbD 4 = false), rfl⟩

/-- A SYN-ACK passes the test of the block whose SYN `d` it answers (42_handshake_passive.md R242, 41_handshake_active.md
R207). -/
theorem synackFor_synackSegment {chk : ActivePortCheck} {argPort argLport : Half} {d : Segment} {isn : Word}
    (hdst : d.srcPort = argLport) (hseq : d.seq = isn) (harg : chk = .argDst → argLport = argPort)
    (window : Half) (v : Word) (c : Half) :
    SynackFor chk argPort argLport isn { synackSegment window argPort v d with checksum := c } :=
  ⟨(by decide : (flagSYN ||| flagACK).getLsbD 1 = true), (by decide : (flagSYN ||| flagACK).getLsbD 4 = true),
    portsFor_of_ports rfl hdst harg, congrArg Word.succ32 hseq⟩

/-- A final ACK passes the test of the block whose SYN-ACK `d` it answers (41_handshake_active.md R210,
42_handshake_passive.md R252). -/
theorem ackFor_ackSegment {d : Segment} {isn peerIsn : Word} (hseq : d.seq = isn) (hack : d.ack = peerIsn + 1)
    (window lport port : Half) (c : Half) :
    AckFor port isn peerIsn { ackSegment window lport port d with checksum := c } :=
  ⟨(by decide : flagACK.getLsbD 4 = true), (by decide : flagACK.getLsbD 1 = false), rfl, congrArg Word.succ32 hseq, hack⟩

/-- Settles O60: each block's segment is received as sent and accepted by the other. -/
theorem twoBlocksHandshakeWithEachOther : Obligations.TwoBlocksHandshakeWithEachOther := by
  intro ie₁ ie₂ client server c₀ s₀ k₁ k₂ k₃ r₁ r₂ r₃ a₁ a₂ a₃ h hcp hsp hcdl hsdl hport harg hcgo hsgo hr₁ hr₂ hr₃ n
    c₁ s₁ c₂ s₂ hc₁ hs₁ hc₂ hs₂ c s hc hs
  -- the SYN
  obtain ⟨-, S₁, m₁, hS₁, hsyn⟩ := connect_sendsSyn hcp hcgo k₁
  rw [hsyn] at hc₁
  have hsent₁ : sentBytes c₁ = encodeFn S₁ := by rw [hc₁]; rfl
  -- the SYN-ACK
  have hs₀ := Host.Outcome.next.inj (hsgo.symm.trans (exec_listen_idle ie₂ hsp))
  obtain ⟨hrecv₁, hdec₁⟩ := received_of_sent (S := S₁) s₀.params (by rw [hS₁]; rfl) (by rw [hS₁]; rfl)
  have hfor₁ : SynFor s₀.argPort S₁ := by rw [hs₀, hS₁]; exact hport ▸ synFor_synSegment _ _ _ _ _
  obtain ⟨v, S₂, _, m₂, -, hS₂, hsynack⟩ :=
    syn_sendsSynack (s := s₀) (by rw [hs₀]) (by rw [hs₀]; exact hsdl) hrecv₁ hdec₁ hfor₁ n a₁ k₂
  rw [hsent₁, hsynack] at hs₁
  have hsent₂ : sentBytes s₁ = encodeFn S₂ := by rw [hs₁]; rfl
  -- the ACK
  generalize hu : answer (.send r₁) c₁ = u at hc₂
  rw [hc₁, answer_synSent rfl rfl rfl hr₁] at hu
  obtain ⟨hrecv₂, hdec₂⟩ := received_of_sent (S := S₂) u.params (by rw [hS₂]; rfl) (by rw [hS₂]; rfl)
  have hfor₂ : SynackFor u.params.activePortCheck u.argPort u.argLport u.isnReg S₂ := by
    rw [← hu, hS₂, hS₁, hs₀]
    exact hport ▸ synackFor_synackSegment rfl rfl harg _ _ _
  obtain ⟨S₃, _, m₃, hS₃, hack⟩ :=
    synack_sendsAck (s := u) (by rw [← hu]) (by rw [← hu]; exact hcdl) hrecv₂ hdec₂ hfor₂ a₂ k₃
  rw [hsent₂, hack] at hc₂
  have hsent₃ : sentBytes c₂ = encodeFn S₃ := by rw [hc₂]; rfl
  -- the session
  generalize hw : answer (.send r₂) s₁ = w at hs₂
  rw [hs₁, answer_synackSent rfl rfl rfl hr₂] at hw
  obtain ⟨hrecv₃, hdec₃⟩ := received_of_sent (S := S₃) w.params (by rw [hS₃]; rfl) (by rw [hS₃]; rfl)
  have hfor₃ : AckFor w.argPort w.isnReg w.peerIsn S₃ := by
    rw [← hw, hS₃, hS₂, hS₁, hs₀, ← hu]
    exact hport ▸ ackFor_ackSegment rfl rfl _ _ _ _
  obtain ⟨m₄, hsess⟩ := ack_establishes (s := w) (by rw [← hw]) (by rw [← hw, hs₀]; exact hsdl) hrecv₃ hdec₃ hfor₃ a₃ h
  rw [hs₂, hsent₃, hsess] at hs
  rw [hc₂, answer_ackSent rfl rfl rfl hr₃] at hc
  have hclient : u.isnReg = c₀.isnReg ∧ u.argSession = client.argSession := by rw [← hu]; exact ⟨rfl, rfl⟩
  have hserver : w.peerIsn = c₀.isnReg ∧ w.isnReg = S₂.seq ∧ w.params = server.params := by
    rw [← hw, hS₂, hS₁, hs₀]; exact ⟨rfl, rfl, rfl⟩
  obtain ⟨hisn, hsession⟩ := hclient
  obtain ⟨hpeerIsn, hseq, hparams⟩ := hserver
  subst hc hs
  exact ⟨rfl, rfl, rfl, rfl, congrArg (· + 1) (hisn.trans hpeerIsn.symm), hseq.symm, hsession, hparams ▸ rfl⟩

end Sys2Proof.Machine
end

section
/-! PROOFS. Passive open (42_handshake_passive.md): the GO step of LISTEN (O39), the accepted SYN and the accepted final ACK
(O40, O41), the session factory's answer (O42), and LISTEN against any answers within the budgets of its two receive phases
(O59). The rounds they are made of stand with the handshake of two blocks, above. -/

namespace Sys2Proof.Machine

variable {s : State}

/-! ## The steps of LISTEN (O39, O40, O41, O42) -/

/-- Settles O39: the prologue and the start rule of LISTEN. -/
theorem listenStartsTheReceivePhase : Obligations.ListenStartsTheReceivePhase := fun ie _ hp => exec_listen_idle ie hp

/-- Settles O40: the number of the SYN-ACK is the step's draw. -/
theorem acceptedSynBuildsTheSynack : Obligations.AcceptedSynBuildsTheSynack := by
  refine ⟨fun _ _ => rfl, fun s r bytes a d hp hr hrecv hd hfor => ?_⟩
  obtain ⟨S, mr, mt, hS, hmr, hmt, hstep⟩ := blockStep_acceptedSyn hp hr hrecv hd hfor
  exact ⟨isnDraw s, S, mr, mt, fun w hw => isnDraw_some hw, hS, hmr, hmt, hstep⟩

/-- Settles O41: the segment passes the test, and the accept step asks for the session. -/
theorem acceptedAckAsksForTheSession : Obligations.AcceptedAckAsksForTheSession := fun _ _ _ _ _ hp hr hrecv hd hfor =>
  blockStep_acceptedAck hp hr hrecv hd hfor

/-- Settles O42, by the rule of the phase for each of the two answers. -/
theorem sessionAnswerEndsListen : Obligations.SessionAnswerEndsListen := by
  refine fun s h hp => ⟨fun hr => ?opened, fun hr => ?refused⟩
  case opened => rw [blockStep_pSessWait hp hr, sessRespond, if_pos rfl]; rfl
  case refused => rw [blockStep_pSessWait hp hr, sessRespond, if_neg Bool.false_ne_true]; rfl

/-! ## LISTEN from the GO step to its end (O59) -/

variable {r r₃ : Word} {bytes : List Byte} {a : Addr} {d : Segment} {c : Half}

/-- The checksum of the SYN-ACK is answered (42_handshake_passive.md R248). -/
theorem answer_synackCsum (hp : s.phase = .pSynackCsumWait) (hport : s.outreq.map Request.port = some .csum)
    (hnone : s.response = none) (c : Half) : answer (.csum c) s = endStep (synackCsumRespond c (clearPort s)) :=
  (answer_eq hport hnone rfl).trans (blockStep_pSynackCsumWait (s := { s with response := some (.csum c) }) hp rfl)

/-- LISTEN from an answered SYN to its second receive phase: `ISN_REG` keeps the number drawn in the receive attempt `w`, while
the checksum and the send of the SYN-ACK are answered (42_handshake_passive.md R243 to R249). -/
theorem synackRound_entersAckPhase {n : Option Word} {w : State} (hw : w = receiveAttemptDrawing n (.recv r bytes a) s)
    (hp : s.phase = .pSynRecvIssue) (hdl : s.deadline = false) (hrecv : Received s.params r bytes)
    (hd : decodeFn bytes = some d) (hfor : SynFor s.argPort d) (hpos : 0 < r₃.toInt) :
    (∀ v, n = some v → w.isnReg = v) ∧ ∃ S mr mt,
      answer (.send r₃) (answer (.csum c) w) =
        { s with
          rxlen := BitVec.ofNat 16 bytes.length, rxbuf := mr, rxseg := d, peerIsn := d.seq, peerPort := d.srcPort
          peerAddr := keepAddr s.params a, isnReg := w.isnReg, txseg := S, txbuf := mt, txlen := 20
          outreq := none, response := none, nextIsn := none
          connState := .synReceived, retryLeft := s.argBudget, phase := .pAckRecvIssue } := by
  obtain ⟨v, S, mr, mt, hv, -, hsynack⟩ := syn_sendsSynack hp hdl hrecv hd hfor n a c
  obtain ⟨_, _, _, -, -, -, haccept⟩ := blockStep_acceptedSyn (s := { s with
    outreq := some (.recv s.argSession s.params.rxBufBytes), response := some (.recv r bytes (keepAddr s.params a))
    nextIsn := n, phase := .pSynRecvWait }) rfl rfl hrecv hd hfor
  rw [← receiveAttemptDrawing_eq (.inr (.inl ⟨rfl, rfl, rfl⟩)) hp hdl hrecv, ← hw] at haccept
  rw [← hw] at hsynack
  have hcsum := answer_synackCsum (s := w) (by rw [haccept]) (by rw [haccept]; rfl) (by rw [haccept]) c
  have hisn : w.isnReg = v := congrArg State.isnReg (hcsum.symm.trans hsynack)
  rw [hisn, hsynack]
  exact ⟨hv, S, mr, mt, answer_synackSent rfl rfl rfl hpos⟩

/-- LISTEN from its second receive phase on, whatever began it: the drops leave the phase as it was but for its counts, and the
session opened for the accepted ACK completes it (42_handshake_passive.md R250 to R256). -/
theorem ackReceivePhase_establishes {dropped : List Response} {h : Session} {t : State}
    (ht : t = answer (.sess true h) (receiveAttempt (.recv r bytes a) (receiveAttempts dropped s)))
    (hp : s.phase = .pAckRecvIssue) (hdl : s.deadline = false)
    (hdrop : ∀ x ∈ dropped, DroppedAnswer s.params (AckFor s.argPort s.isnReg s.peerIsn) x)
    (hlen : dropped.length ≤ s.retryLeft.toNat) (hrecv : Received s.params r bytes) (hd : decodeFn bytes = some d)
    (hfor : AckFor s.argPort s.isnReg s.peerIsn d) :
    (t.phase = .idle ∧ t.done = true ∧ t.err = .none ∧ t.failState = .closed ∧ t.connState = .established ∧
      t.connValid = true) ∧
    t.connLocalSeq = s.isnReg ∧ t.connRemoteAcked = s.peerIsn + 1 ∧ t.connSession = keepSession s.params h ∧
      t.discards.toNat = min (s.discards.toNat + dropped.length) 65535 ∧ t.ie = s.ie := by
  obtain ⟨hframe, -, hcount⟩ := receiveAttempts_dropped (.inr (.inr ⟨rfl, rfl, rfl⟩)) hp hdl hdrop hlen
  generalize receiveAttempts dropped s = w at *
  have kept {β : Type} (f : State → β) := congrArg f hframe
  have hparams : w.params = s.params := kept State.params
  have hport : w.argPort = s.argPort := kept State.argPort
  have hisn : w.isnReg = s.isnReg := kept State.isnReg
  have hpeer : w.peerIsn = s.peerIsn := kept State.peerIsn
  rw [← hparams] at hrecv ⊢
  rw [← hport, ← hisn, ← hpeer] at hfor
  obtain ⟨m, hdone⟩ := ack_establishes (s := w) ((kept State.phase).trans hp) ((kept State.deadline).trans hdl) hrecv hd
    hfor a h
  rw [hdone] at ht
  subst ht
  exact ⟨⟨rfl, rfl, rfl, rfl, rfl, rfl⟩, hisn, congrArg (· + 1) hpeer, rfl, hcount, kept State.ie⟩

/-- Settles O59: each receive phase drops within its budget, the first up to the SYN and the second up to the final ACK. -/
theorem listenReachesEstablished : Obligations.ListenReachesEstablished := by
  intro ie s g c r₁ r₂ r₃ dropped₁ dropped₂ bytes₁ bytes₂ a₁ a₂ d₁ d₂ h hp hdl hgo hr₃ hdrop₁ hlen₁ hrecv₁ hd₁ hfor₁ n w hw
    hdrop₂ hlen₂ hrecv₂ hd₂ hfor₂ t ht
  have hg := Host.Outcome.next.inj (hgo.symm.trans (exec_listen_idle ie hp))
  obtain ⟨hframe, -, hcount₁⟩ := receiveAttempts_dropped (s := g) (dropped := dropped₁) (accepts := SynFor s.argPort)
    (.inr (.inl ⟨rfl, rfl, by rw [hg]⟩)) (by rw [hg]) (by rw [hg]; exact hdl) (by rw [hg]; exact hdrop₁)
    (by rw [hg]; exact hlen₁)
  generalize receiveAttempts dropped₁ g = u at *
  have kept {β : Type} (f : State → β) := congrArg f hframe
  subst hg
  have hparams : u.params = s.params := kept State.params
  have hport : u.argPort = s.argPort := kept State.argPort
  have hbudget : u.argBudget = s.argBudget := kept State.argBudget
  obtain ⟨hdraw, S, mr, mt, hround⟩ := synackRound_entersAckPhase (s := u) (d := d₁) (c := c) hw (kept State.phase)
    ((kept State.deadline).trans hdl) (hparams ▸ hrecv₁) hd₁ (hport ▸ hfor₁) hr₃
  have hdone := ackReceivePhase_establishes (d := d₂) ht
  rw [hround] at hdone
  obtain ⟨⟨hphase, hdn, herr, hfs, hstate, hvalid⟩, hseq, hacked, hsess, hcount₂, hie⟩ :=
    hdone rfl ((kept State.deadline).trans hdl) (by rw [hparams, hport]; exact hdrop₂) (by rw [hbudget]; exact hlen₂)
      (hparams ▸ hrecv₂) hd₂ (hport ▸ hfor₂)
  have hdiscards : t.discards.toNat = min (dropped₁.length + dropped₂.length) 65535 := by
    have hmin₁ : u.discards.toNat = min (0 + dropped₁.length) 65535 := hcount₁
    have hmin₂ : t.discards.toNat = min (u.discards.toNat + dropped₂.length) 65535 := hcount₂
    omega
  have hirq : t.irq = ie := by rw [State.irq, hdn, hie, kept State.ie, Bool.true_and]
  exact ⟨hphase, hdn, herr, hfs, hstate, hvalid, hseq, hacked, hparams ▸ hsess, hdiscards, hirq,
    fun v hv => hseq.trans (hdraw v hv)⟩

end Sys2Proof.Machine
end

section
/-! PROOFS. The control actions and the commands that end at once (43_extension_points.md): the soft reset (O15), the `CTRL`
write without a command (O17), the extension commands (O25) and the codes without a command (O26). -/

namespace Sys2Proof.Machine

variable {s : State}

/-! ## The control actions (O15, O17) -/

theorem exec_srst (s : State) : exec .srst s = .next (resetBlock s) := rfl

theorem exec_ctrlSet (cmd : BitVec 4) (ie : Bool) (s : State) :
    exec (.ctrlSet cmd ie) s = .next { s with ie := ie, cmd := if s.busy then s.cmd else cmd } := rfl

/-- Settles O15: the soft reset is the block's reset, whose record names the kept fields. -/
theorem softResetResetsTheBlock : Obligations.SoftResetResetsTheBlock := exec_srst

/-- Settles O17, by whether a command runs. -/
theorem controlWriteSetsIeAndCmd : Obligations.ControlWriteSetsIeAndCmd := by
  intro cmd ie s
  refine ⟨fun hp => ?_, fun hp => ?_⟩
  · rw [exec_ctrlSet, (idle_iff s).2 hp, if_neg Bool.false_ne_true]
  · rw [exec_ctrlSet, if_pos ((busy_iff s).2 hp)]

/-! ## The commands that end in their GO step (O25, O26) -/

/-- A command whose start rule is `end_codec` leaves an idle block idle, with what the prologue and `end_codec` write
(43_extension_points.md R280, R284). -/
theorem exec_endCodec {i : Instr} {c : BitVec 4} {ie : Bool} {e : ErrKind} (h : startOf i = some (c, ie, endCodec e))
    (hp : s.phase = .idle) :
    exec i s = .next
      { s with
        ie := ie, cmd := c, discards := 0, outreq := none, response := none, nextIsn := none
        err := e, failState := .closed, done := true } := by
  rw [exec_idle h hp, hp]
  rfl

/-- Settles O25: the start rule of each of the three ends with NOT_IMPLEMENTED. -/
theorem extensionCommandsEndNotImplemented : Obligations.ExtensionCommandsEndNotImplemented := by
  intro ie i c s hi hp
  have hstart : startOf i = some (c, ie, endCodec .notImplemented) := by
    fin_cases hi <;> rfl
  exact exec_endCodec hstart hp

/-- Settles O26: the start rule of each of the eight ends with BAD_COMMAND. -/
theorem codesWithoutACommandEndBadCommand : Obligations.CodesWithoutACommandEndBadCommand := by
  intro ie i c s hi hp
  have hstart : startOf i = some (c, ie, endCodec .badCommand) := by
    fin_cases hi <;> rfl
  exact exec_endCodec hstart hp

end Sys2Proof.Machine
end

section
/-! PROOFS. Exceptions and progress (60_exceptions.md): each enabled step of the block brings a running command nearer to its
end (O56); failed sends and receives (O31, O34), dropped segments and their budget (O35, O57); the error kinds (O51) and the
interrupt level (O52). -/

namespace Sys2Proof.Machine

variable {s : State}

/-! ## The bound on the steps a command has left (O56) -/

/-- With the phase written out, the bound computes. -/
theorem stepsLeft_atPhase {p : Phase} (hp : s.phase = p) : s.stepsLeft = ({ s with phase := p } : State).stepsLeft := by
  subst hp; rfl

theorem stepsLeft_eq_zero (s : State) : s.stepsLeft = 0 ↔ s.phase = .idle := by
  cases hp : s.phase <;> rw [stepsLeft_atPhase hp] <;> simp [State.stepsLeft]

@[simp] theorem stepsLeft_fail (e : ErrKind) (s : State) : (fail e s).stepsLeft = 0 := rfl

/-- An issue phase begins at least one attempt to receive. -/
theorem stepsLeft_issue {back : Phase} (hback : back.isIssue) (s : State) :
    2 * s.retryLeft.toNat + 3 ≤ ({ s with phase := back } : State).stepsLeft := by
  rcases hback with rfl | rfl | rfl <;> simp only [State.stepsLeft] <;> omega

/-- A discard spends an attempt to receive, two steps of the block (60_exceptions.md R309). -/
theorem stepsLeft_discard {back : Phase} (hback : back.isIssue) (s : State) :
    (discard back s).stepsLeft + 2 ≤ ({ s with phase := back } : State).stepsLeft := by
  rcases discard_cases back s with ⟨-, e⟩ | ⟨hleft, e⟩ <;> rw [e]
  · have hmin := stepsLeft_issue hback s
    rw [stepsLeft_fail]
    omega
  · have hretry : (s.retryLeft - 1).toNat + 1 = s.retryLeft.toNat := by bv_omega
    rcases hback with rfl | rfl | rfl <;> simp only [State.stepsLeft] <;> omega

theorem stepsLeft_issueRecv {wait : Phase} {n : Nat} (hpos : 0 < n)
    (hwait : ({ s with phase := wait } : State).stepsLeft < n) : (issueRecv wait s).stepsLeft < n := by
  rcases issueRecv_cases wait s with ⟨-, e⟩ | ⟨-, e⟩ <;> rw [e]
  · exact hpos
  · exact hwait

theorem stepsLeft_sendRespond {sent : State → State} {n : Nat} (hpos : 0 < n) (hsent : (sent s).stepsLeft < n) (r : Word) :
    (sendRespond sent r s).stepsLeft < n := by
  rcases sendRespond_cases sent r s with ⟨-, e⟩ | ⟨-, e⟩ <;> rw [e]
  · exact hpos
  · exact hsent

/-- A received segment ends the command, spends an attempt or goes on to a later phase. -/
theorem stepsLeft_recvRespond {back : Phase} {acc : Segment → State → State} {n : Nat} (hback : back.isIssue)
    (hn : ({ s with phase := back } : State).stepsLeft ≤ n + 1)
    (hacc : ∀ d u, u.argBudget = s.argBudget → (acc d u).stepsLeft < n) (m : Segment → State → Bool) (r : Word)
    (bs : List Byte) : (recvRespond back m acc r bs s).stepsLeft < n := by
  have hmin := stepsLeft_issue hback s
  rcases recvRespond_cases back m acc r bs s with ⟨-, e⟩ | ⟨-, -, e⟩ | ⟨d, -, -, -, e⟩ | ⟨d, -, -, -, e⟩ <;> rw [e]
  · rw [stepsLeft_fail]
    omega
  · have hdrop : _ ≤ ({ s with phase := back } : State).stepsLeft :=
      stepsLeft_discard hback { rxStore r bs s with malformedSeen := true }
    omega
  · have hdrop : _ ≤ ({ s with phase := back } : State).stepsLeft := stepsLeft_discard hback (loadRx d (rxStore r bs s))
    omega
  · exact hacc d _ rfl

/-- An enabled block in a phase that waits on `q` has the response of that port (20_memory.md R86). -/
theorem response_of_blockEnabled {q : Port} (he : s.blockEnabled = true) (hq : s.phase.waitsOn = some q) :
    ∃ r, s.response = some r ∧ r.port = q := by
  unfold State.blockEnabled at he
  simpa [hq] using he

variable {p : Phase}

theorem csum_of_blockEnabled (he : s.blockEnabled = true) (hp : s.phase = p) (hq : p.waitsOn = some .csum) :
    ∃ c, s.response = some (.csum c) := by
  obtain ⟨r, hr, hport⟩ := response_of_blockEnabled he (hp ▸ hq)
  cases r <;> cases hport
  exact ⟨_, hr⟩

theorem send_of_blockEnabled (he : s.blockEnabled = true) (hp : s.phase = p) (hq : p.waitsOn = some .send) :
    ∃ r, s.response = some (.send r) := by
  obtain ⟨r, hr, hport⟩ := response_of_blockEnabled he (hp ▸ hq)
  cases r <;> cases hport
  exact ⟨_, hr⟩

theorem recv_of_blockEnabled (he : s.blockEnabled = true) (hp : s.phase = p) (hq : p.waitsOn = some .recv) :
    ∃ r bs a, s.response = some (.recv r bs a) := by
  obtain ⟨r, hr, hport⟩ := response_of_blockEnabled he (hp ▸ hq)
  cases r <;> cases hport
  exact ⟨_, _, _, hr⟩

theorem sess_of_blockEnabled (he : s.blockEnabled = true) (hp : s.phase = p) (hq : p.waitsOn = some .sess) :
    ∃ ok h, s.response = some (.sess ok h) := by
  obtain ⟨r, hr, hport⟩ := response_of_blockEnabled he (hp ▸ hq)
  cases r <;> cases hport
  exact ⟨_, _, hr⟩

/-- The bound before the step is written with the phase in place, so that it computes in each case. -/
theorem stepsLeft_blockStep_atPhase (he : s.blockEnabled = true) (hp : s.phase = p) :
    (blockStep s).stepsLeft < ({ s with phase := p } : State).stepsLeft := by
  cases p
  case idle => simp [State.blockEnabled, hp, Phase.waitsOn] at he
  case cCsumWait =>
    obtain ⟨c, hr⟩ := csum_of_blockEnabled he hp rfl
    rw [blockStep_cCsumWait hp hr]
    exact Nat.one_pos
  case aSynCsumWait =>
    obtain ⟨c, hr⟩ := csum_of_blockEnabled he hp rfl
    rw [blockStep_aSynCsumWait hp hr]
    exact Nat.lt_succ_self _
  case aSynSendWait =>
    obtain ⟨r, hr⟩ := send_of_blockEnabled he hp rfl
    rw [blockStep_aSynSendWait hp hr]
    exact stepsLeft_sendRespond (sent := synSent) (Nat.succ_pos _) (Nat.lt_succ_self _) r
  case aSynackRecvIssue =>
    rw [blockStep_aSynackRecvIssue hp]
    exact stepsLeft_issueRecv (wait := .aSynackRecvWait) (Nat.succ_pos _) (Nat.lt_succ_self _)
  case aSynackRecvWait =>
    obtain ⟨r, bs, a, hr⟩ := recv_of_blockEnabled he hp rfl
    rw [blockStep_aSynackRecvWait hp hr]
    refine stepsLeft_recvRespond (s := clearPort s) (acc := acceptSynack) (.inl rfl) (Nat.le_refl _) (fun d u _ => ?_) _ r bs
    exact Nat.le_add_left 3 _
  case aAckCsumWait =>
    obtain ⟨c, hr⟩ := csum_of_blockEnabled he hp rfl
    rw [blockStep_aAckCsumWait hp hr]
    exact Nat.one_lt_two
  case aAckSendWait =>
    obtain ⟨r, hr⟩ := send_of_blockEnabled he hp rfl
    rw [blockStep_aAckSendWait hp hr]
    exact stepsLeft_sendRespond (sent := completeActive) Nat.one_pos Nat.one_pos r
  case pSynRecvIssue =>
    rw [blockStep_pSynRecvIssue hp]
    exact stepsLeft_issueRecv (wait := .pSynRecvWait) (Nat.succ_pos _) (Nat.lt_succ_self _)
  case pSynRecvWait =>
    obtain ⟨r, bs, a, hr⟩ := recv_of_blockEnabled he hp rfl
    rw [blockStep_pSynRecvWait hp hr]
    refine stepsLeft_recvRespond (s := clearPort s) (acc := acceptSyn a) (.inr (.inl rfl)) (Nat.le_refl _)
      (fun d u hu => ?_) _ r bs
    change 2 * u.argBudget.toNat + 5 < 2 * s.retryLeft.toNat + 2 * s.argBudget.toNat + 6
    rw [hu, clearPort_argBudget]
    omega
  case pSynackCsumWait =>
    obtain ⟨c, hr⟩ := csum_of_blockEnabled he hp rfl
    rw [blockStep_pSynackCsumWait hp hr]
    exact Nat.lt_succ_self _
  case pSynackSendWait =>
    obtain ⟨r, hr⟩ := send_of_blockEnabled he hp rfl
    rw [blockStep_pSynackSendWait hp hr]
    exact stepsLeft_sendRespond (sent := synackSent) (Nat.succ_pos _) (Nat.lt_succ_self _) r
  case pAckRecvIssue =>
    rw [blockStep_pAckRecvIssue hp]
    exact stepsLeft_issueRecv (wait := .pAckRecvWait) (Nat.succ_pos _) (Nat.lt_succ_self _)
  case pAckRecvWait =>
    obtain ⟨r, bs, a, hr⟩ := recv_of_blockEnabled he hp rfl
    rw [blockStep_pAckRecvWait hp hr]
    refine stepsLeft_recvRespond (s := clearPort s) (acc := acceptAck) (.inr (.inr rfl)) (Nat.le_refl _)
      (fun d u _ => ?_) _ r bs
    exact Nat.le_add_left 2 _
  case pSessWait =>
    obtain ⟨ok, h, hr⟩ := sess_of_blockEnabled he hp rfl
    rw [blockStep_pSessWait hp hr]
    rcases sessRespond_cases ok h (clearPort s) with ⟨-, e⟩ | ⟨-, e⟩ <;> rw [e] <;> exact Nat.one_pos

/-- Each enabled step of the block brings the command nearer to its end (60_exceptions.md R326). -/
theorem stepsLeft_blockStep_lt (he : s.blockEnabled = true) : (blockStep s).stepsLeft < s.stepsLeft :=
  stepsLeft_blockStep_atPhase he rfl

theorem stepsLeft_blockStep_le (s : State) : (blockStep s).stepsLeft ≤ s.stepsLeft := by
  cases he : s.blockEnabled
  · rw [blockStep_waiting he]
  · exact (stepsLeft_blockStep_lt he).le

/-- What a turn `u` does to the bound of a running command. -/
def WorkMove (u : Turn) (s t : State) : Prop :=
  s.phase ≠ .idle →
    t.stepsLeft ≤ s.stepsLeft ∧ (u = .block → s.blockEnabled = true → t.stepsLeft < s.stepsLeft)

/-- A turn of the host or the environment that leaves the bound as it is. -/
theorem workMove_of_eq {u : Turn} {t : State} (hu : u ≠ .block) (h : t.stepsLeft = s.stepsLeft) : WorkMove u s t :=
  fun _ => ⟨h.le, fun e => absurd e hu⟩

/-- A plain register write does not reach what the bound reads while a command runs (20_memory.md R84). -/
theorem stepsLeft_hostWrite {a : BitVec 8} (v : Word) (ha : a ≠ ctrlAddr) (hp : s.phase ≠ .idle) :
    (hostWrite a v s).stepsLeft = s.stepsLeft :=
  have hwrite : takeWrite a v s = .next (hostWrite a v s) := by simp only [takeWrite, decode, if_neg ha]
  (congrArg State.stepsLeft (hostCannotDisturbARunningCommand s _ a v hp (fun h => absurd h ha) hwrite) :)

theorem step_work {t : State} (hst : step s = .next t) : WorkMove (nextTurn s) (fetched s) t := by
  refine step_relates WorkMove ?read ?write ?busy ?start ?srst ?set ?wait ?respond ?deadline ?isn ?reset ?block hst
  case write => exact fun a v s ha hp => workMove_of_eq nofun (stepsLeft_hostWrite v ha hp) hp
  case start => exact fun v c ie f s _ hidle hp => absurd hidle hp
  case srst => exact fun v s _ _ => ⟨Nat.zero_le _, nofun⟩
  case wait => exact fun s => workMove_of_eq nofun (pollDone_keeps s State.stepsLeft fun _ _ _ => rfl)
  case respond => exact fun r s => workMove_of_eq nofun (deliver_keeps r s State.stepsLeft fun _ _ => rfl)
  case reset => exact fun s _ => ⟨Nat.zero_le _, nofun⟩
  case block => exact fun s _ => ⟨stepsLeft_blockStep_le s, fun _ he => stepsLeft_blockStep_lt he⟩
  all_goals intros; exact workMove_of_eq nofun rfl

/-- Settles O56: an enabled step of the block lowers the bound by the rule of its phase, a reset clears it, and no other turn
reaches it while a command runs. -/
theorem enabledBlockStepsExhaustTheCommand : Obligations.EnabledBlockStepsExhaustTheCommand := by
  intro s t hst hp
  obtain ⟨hle, hlt⟩ := step_work hst hp
  exact ⟨hle, hlt, stepsLeft_eq_zero t⟩

/-! ## Failed sends and receives (O31, O34) -/

theorem nonPositive_eq_true {r : Word} (h : r.toInt ≤ 0) : nonPositive r = true := decide_eq_true h

/-- Settles O31: in each of the three phases the rule is `fail`, whatever a positive result would do. -/
theorem failedSendAbortsTheHandshake : Obligations.FailedSendAbortsTheHandshake := by
  intro r s hphase hr hneg
  have hsend : ∃ sent, blockStep s = endStep (sendRespond sent r (clearPort s)) := by
    simp only [List.mem_cons, List.not_mem_nil, or_false] at hphase
    rcases hphase with hp | hp | hp
    · exact ⟨_, blockStep_aSynSendWait hp hr⟩
    · exact ⟨_, blockStep_aAckSendWait hp hr⟩
    · exact ⟨_, blockStep_pSynackSendWait hp hr⟩
  obtain ⟨sent, hstep⟩ := hsend
  rw [hstep, sendRespond, if_pos (nonPositive_eq_true hneg)]
  rfl

/-- Settles O34: the result is tested before the bytes are stored (60_exceptions.md R314). -/
theorem failedReceiveAbortsTheHandshake : Obligations.FailedReceiveAbortsTheHandshake := by
  intro s issue wait accepts r bytes a hphase hp hr hneg
  obtain ⟨test, acc, -, hstep⟩ := blockStep_receive hphase hp hr
  rw [hstep, recvRespond, if_pos (nonPositive_eq_true hneg)]
  rfl

/-! ## Dropped segments and their budget (O35, O57) -/

/-- Settles O35: what is received is stored before the discard, which goes by the budget. -/
theorem droppedSegmentsCountAgainstTheBudget : Obligations.DroppedSegmentsCountAgainstTheBudget := by
  intro s issue wait accepts r bytes a hphase hp hr hrecv hdrop
  obtain ⟨m, hread, hstep⟩ := blockStep_dropped hphase hp hr hrecv hdrop
  refine ⟨m, _, hread, rfl, fun hleft => ?exhausted, fun hleft => ?retries⟩
  case exhausted => rw [hstep, discard, if_pos (by exact hleft)]; rfl
  case retries => rw [hstep, discard, if_neg (by exact hleft)]; rfl

variable {issue wait : Phase} {accepts : Segment → Prop}

/-- One dropped segment, with no discard left for it (60_exceptions.md R309). -/
theorem receiveAttempt_exhausted {x : Response} (hphase : s.ReceivePhase issue wait accepts) (hp : s.phase = issue)
    (hdl : s.deadline = false) (hdrop : DroppedAnswer s.params accepts x) (hleft : s.retryLeft = 0) :
    (receiveAttempt x s).phase = .idle ∧ (receiveAttempt x s).err = .handshakeTimeout ∧
      (receiveAttempt x s).failState = s.connState ∧ (receiveAttempt x s).connState = .closed ∧
      (receiveAttempt x s).connValid = false ∧ (receiveAttempt x s).done = true ∧
      (receiveAttempt x s).outreq = none := by
  obtain ⟨r, bytes, a, rfl, hrecv, hbytes⟩ := hdrop
  obtain ⟨m, u, -, rfl, hend, -⟩ := droppedSegmentsCountAgainstTheBudget { s with
    outreq := some (.recv s.argSession s.params.rxBufBytes), response := some (.recv r bytes (keepAddr s.params a))
    nextIsn := none, phase := wait } issue wait accepts r bytes _ hphase rfl rfl hrecv hbytes
  rw [receiveAttempt_eq hphase hp hdl hrecv, hend hleft]
  exact ⟨rfl, rfl, rfl, rfl, rfl, rfl, rfl⟩

/-- Settles O57: the drops within the budget leave the phase as it was but for its counts, and the next one finds no discard
left. -/
theorem receivePhaseDropsAtMostItsBudget : Obligations.ReceivePhaseDropsAtMostItsBudget := by
  intro s issue wait accepts dropped hphase hp hdl hdrop
  refine ⟨fun hlen => ?within, fun hlen => ?beyond⟩
  case within =>
    obtain ⟨hframe, hretry, -⟩ := receiveAttempts_dropped hphase hp hdl hdrop hlen
    have kept {β : Type} (g : State → β) := congrArg g hframe
    exact ⟨(kept State.phase).trans hp, hretry, kept State.connState⟩
  case beyond =>
    obtain ⟨within, last, rfl⟩ : ∃ within last, dropped = within ++ [last] :=
      (List.eq_nil_or_concat' dropped).resolve_left (List.ne_nil_of_length_eq_add_one hlen)
    rw [List.length_append, List.length_singleton, Nat.add_right_cancel_iff] at hlen
    obtain ⟨hframe, hretry, -⟩ := receiveAttempts_dropped hphase hp hdl
      (fun x hx => hdrop x (List.mem_append_left _ hx)) hlen.le
    have happend : receiveAttempts (within ++ [last]) s = receiveAttempt last (receiveAttempts within s) := by
      simp only [receiveAttempts, List.foldl_append, List.foldl_cons, List.foldl_nil]
    rw [happend]
    generalize receiveAttempts within s = u at *
    have kept {β : Type} (g : State → β) := congrArg g hframe
    have hleft : u.retryLeft = 0 := BitVec.eq_of_toNat_eq (by rw [hretry, hlen, Nat.sub_self]; rfl)
    have hstate : u.connState = s.connState := kept State.connState
    have hlast : DroppedAnswer u.params accepts last :=
      (kept State.params).symm ▸ hdrop last (List.mem_append_right _ (List.mem_singleton_self last))
    rw [← hstate]
    exact receiveAttempt_exhausted (receivePhase_of_dropsOnly hframe hphase) ((kept State.phase).trans hp)
      ((kept State.deadline).trans hdl) hlast hleft

/-! ## How a command ends (O51, O52) -/

/-- The error kinds a command raises, by its code (60_exceptions.md R300 to R304, R307). -/
def ErrKind.RaisedBy (e : ErrKind) (c : BitVec 4) : Prop :=
  match e with
  | .none => True
  | .sendFailure | .receiveFailure | .handshakeTimeout => c = 0x4 ∨ c = 0x5
  | .malformedSegment => c = 0x2
  | .sessionOpenFailure => c = 0x5
  | .badCommand => c ∈ [0x0#4, 0x6, 0x7, 0xB, 0xC, 0xD, 0xE, 0xF]
  | .notImplemented => c ∈ [0x8#4, 0x9, 0xA]
  | .badHeaderLength => c = 0x1 ∨ c = 0x3

/-- From `s` to `t` the command `c` goes on, or it ends with `DONE` and an error of its own; `CTRL` stays. -/
def RunsOrEnds (c : BitVec 4) (s t : State) : Prop :=
  t.cmd = s.cmd ∧ t.ie = s.ie ∧
    ((t.done = s.done ∧ t.err = s.err) ∨ (t.phase = .idle ∧ t.done = true ∧ t.err.RaisedBy c))

section
variable {c : BitVec 4}

theorem runsOrEnds_running {t : State} (h : (t.cmd, t.ie, t.done, t.err) = (s.cmd, s.ie, s.done, s.err)) :
    RunsOrEnds c s t := by
  simp only [Prod.mk.injEq] at h
  obtain ⟨hcmd, hie, hrun⟩ := h
  exact ⟨hcmd, hie, .inl hrun⟩

theorem runsOrEnds_fail {e : ErrKind} (he : e.RaisedBy c) : RunsOrEnds c s (fail e s) := ⟨rfl, rfl, .inr ⟨rfl, rfl, he⟩⟩

theorem runsOrEnds_endCodec {e : ErrKind} (he : e.RaisedBy c) : RunsOrEnds c s (endCodec e s) :=
  ⟨rfl, rfl, .inr ⟨rfl, rfl, he⟩⟩

theorem runsOrEnds_finishOk {t : State} (hcmd : t.cmd = s.cmd) (hie : t.ie = s.ie) : RunsOrEnds c s (finishOk t) :=
  ⟨hcmd, hie, .inr ⟨rfl, rfl, trivial⟩⟩

variable (hc : c = 0x4 ∨ c = 0x5)
include hc

theorem runsOrEnds_discard (back : Phase) (s : State) : RunsOrEnds c s (discard back s) := by
  rcases discard_cases back s with ⟨-, e⟩ | ⟨-, e⟩ <;> rw [e]
  · exact runsOrEnds_fail (s := { s with discards := nextDiscards s.discards }) hc
  · exact runsOrEnds_running rfl

theorem runsOrEnds_issueRecv (wait : Phase) (s : State) : RunsOrEnds c s (issueRecv wait s) := by
  rcases issueRecv_cases wait s with ⟨-, e⟩ | ⟨-, e⟩ <;> rw [e]
  · exact runsOrEnds_fail hc
  · exact runsOrEnds_running rfl

theorem runsOrEnds_sendRespond {sent : State → State} (hsent : RunsOrEnds c s (sent s)) (r : Word) :
    RunsOrEnds c s (sendRespond sent r s) := by
  rcases sendRespond_cases sent r s with ⟨-, e⟩ | ⟨-, e⟩ <;> rw [e]
  · exact runsOrEnds_fail hc
  · exact hsent

theorem runsOrEnds_recvRespond {acc : Segment → State → State} (hacc : ∀ d u, RunsOrEnds c u (acc d u)) (back : Phase)
    (m : Segment → State → Bool) (r : Word) (bs : List Byte) : RunsOrEnds c s (recvRespond back m acc r bs s) := by
  rcases recvRespond_cases back m acc r bs s with ⟨-, e⟩ | ⟨-, -, e⟩ | ⟨d, -, -, -, e⟩ | ⟨d, -, -, -, e⟩ <;> rw [e]
  · exact runsOrEnds_fail hc
  · exact runsOrEnds_discard hc back { rxStore r bs s with malformedSeen := true }
  · exact runsOrEnds_discard hc back (loadRx d (rxStore r bs s))
  · exact hacc d (loadRx d (rxStore r bs s))

end

/-- A step of the block changes nothing, or it is a step of the command its phase belongs to. -/
theorem blockStep_runsOrEnds (s : State) :
    blockStep s = s ∨ ∃ c, s.phase.command = some c ∧ RunsOrEnds c s (blockStep s) := by
  have active : (0x4 : BitVec 4) = 0x4 ∨ (0x4 : BitVec 4) = 0x5 := .inl rfl
  have passive : (0x5 : BitVec 4) = 0x4 ∨ (0x5 : BitVec 4) = 0x5 := .inr rfl
  rcases blockStep_cases s with e | ⟨c, hp, -, e⟩ | ⟨c, hp, -, e⟩ | ⟨r, hp, -, e⟩ | ⟨hp, e⟩ | ⟨r, bs, a, hp, -, e⟩ |
    ⟨c, hp, -, e⟩ | ⟨r, hp, -, e⟩ | ⟨hp, e⟩ | ⟨r, bs, a, hp, -, e⟩ | ⟨c, hp, -, e⟩ | ⟨r, hp, -, e⟩ | ⟨hp, e⟩ |
    ⟨r, bs, a, hp, -, e⟩ | ⟨ok, x, hp, -, e⟩
  · exact .inl e
  all_goals
    right
    rw [e, hp]
    refine ⟨_, rfl, ?_⟩
  · exact runsOrEnds_finishOk rfl rfl
  · exact runsOrEnds_running rfl
  · exact runsOrEnds_sendRespond (s := clearPort s) active (sent := synSent) (runsOrEnds_running rfl) r
  · exact runsOrEnds_issueRecv active _ s
  · exact runsOrEnds_recvRespond (s := clearPort s) active (acc := acceptSynack) (fun _ _ => runsOrEnds_running rfl) _ _ r bs
  · exact runsOrEnds_running rfl
  · exact runsOrEnds_sendRespond (s := clearPort s) active (sent := completeActive) (runsOrEnds_finishOk rfl rfl) r
  · exact runsOrEnds_issueRecv passive _ s
  · exact runsOrEnds_recvRespond (s := clearPort s) passive (acc := acceptSyn a) (fun _ _ => runsOrEnds_running rfl) _ _ r bs
  · exact runsOrEnds_running rfl
  · exact runsOrEnds_sendRespond (s := clearPort s) passive (sent := synackSent) (runsOrEnds_running rfl) r
  · exact runsOrEnds_issueRecv passive _ s
  · exact runsOrEnds_recvRespond (s := clearPort s) passive (acc := acceptAck) (fun _ _ => runsOrEnds_running rfl) _ _ r bs
  · rcases sessRespond_cases ok x (clearPort s) with ⟨-, e⟩ | ⟨-, e⟩ <;> rw [e]
    · exact runsOrEnds_finishOk rfl rfl
    · exact runsOrEnds_fail (s := clearPort s) rfl

/-- A start rule goes on with its command, or it ends it at once. -/
theorem start_runsOrEnds {i : Instr} {c : BitVec 4} {ie : Bool} {f : State → State} (h : startOf i = some (c, ie, f))
    (s : State) : RunsOrEnds c s (f s) := by
  cases i <;> cases h
  case encode =>
    rcases startEncode_cases s with ⟨-, e⟩ | ⟨-, e⟩ <;> rw [e]
    · exact runsOrEnds_endCodec (.inl rfl)
    · exact runsOrEnds_finishOk rfl rfl
  case decode =>
    rcases startDecode_cases s with e | ⟨d, e⟩ <;> rw [e]
    · exact runsOrEnds_endCodec (s := { s with malformedSeen := true }) rfl
    · exact runsOrEnds_finishOk rfl rfl
  case csum =>
    rcases startCsum_cases s with ⟨-, e⟩ | ⟨-, e⟩ <;> rw [e]
    · exact runsOrEnds_endCodec (.inr rfl)
    · exact runsOrEnds_running rfl
  case connect | listen => exact runsOrEnds_running rfl
  case send | receive | close => exact runsOrEnds_endCodec (e := .notImplemented) (by simp [ErrKind.RaisedBy])
  all_goals exact runsOrEnds_endCodec (e := .badCommand) (by simp [ErrKind.RaisedBy])

/-! ## The error kinds (O51) -/

/-- What a step does to `ERR`: nothing, or it leaves a kind of the command in `CTRL.CMD`. -/
def ErrMove (_ : Turn) (s t : State) : Prop := s.StatusOk → t.err = s.err ∨ t.err.RaisedBy t.cmd

theorem errMove_of_eq {u : Turn} {t : State} (h : t.err = s.err) : ErrMove u s t := fun _ => .inl h

theorem errMove_block (s : State) : ErrMove .block s (blockStep s) := by
  rintro ⟨hrun, -⟩
  rcases blockStep_runsOrEnds s with e | ⟨c, hc, hcmd, -, ⟨-, herr⟩ | ⟨-, -, hraised⟩⟩
  · exact .inl (congrArg State.err e)
  · exact .inl herr
  · obtain ⟨hcode, -⟩ := hrun c hc
    exact .inr (hcmd.trans hcode ▸ hraised)

theorem errMove_start {u : Turn} {i : Instr} {c : BitVec 4} {ie : Bool} {f : State → State}
    (h : startOf i = some (c, ie, f)) (s : State) :
    ErrMove u s (endStep (f (prologue { s with ie := ie, cmd := c }))) := by
  intro _
  right
  rw [endStep_err, endStep_cmd]
  obtain ⟨hcmd, -, ⟨-, herr⟩ | ⟨-, -, hraised⟩⟩ := start_runsOrEnds h (prologue { s with ie := ie, cmd := c })
  · rw [herr]
    trivial
  · rw [hcmd]
    exact hraised

theorem step_err {t : State} (hst : step s = .next t) : ErrMove (nextTurn s) (fetched s) t := by
  refine step_relates ErrMove ?read ?write ?busy ?start ?srst ?set ?wait ?respond ?deadline ?isn ?reset ?block hst
  case write =>
    exact fun a v s _ => errMove_of_eq (hostWrite_keeps a v s State.err (fun _ _ => rfl) (fun _ _ => rfl)
      fun _ _ _ _ _ _ _ _ _ => rfl)
  case start => exact fun v c ie f s hs _ => errMove_start hs s
  case srst => exact fun v s _ _ => .inr trivial
  case wait => exact fun s => errMove_of_eq (pollDone_keeps s State.err fun _ _ _ => rfl)
  case respond => exact fun r s => errMove_of_eq (deliver_keeps r s State.err fun _ _ => rfl)
  case reset => exact fun s _ => .inr trivial
  case block => exact errMove_block
  all_goals intros; exact errMove_of_eq rfl

/-- Settles O51: `ERR` changes where a command starts or ends, and its kind is of that command. -/
theorem errorKindsAreRaisedByTheirCommands : Obligations.ErrorKindsAreRaisedByTheirCommands := by
  refine ⟨⟨rfl, rfl, rfl, rfl, rfl, rfl, rfl, rfl, rfl⟩, fun s t hstatus hst hne => ?_⟩
  have hraised : t.err.RaisedBy t.cmd := (step_err hst hstatus).resolve_left hne
  generalize t.err = e at hraised
  cases e <;> exact hraised

/-! ## The interrupt level (O52) -/

/-- What a turn `u` may do to `IRQ` (60_exceptions.md R312). -/
def IrqMove (u : Turn) (s t : State) : Prop :=
  (s.irq = false → t.irq = true →
    (u = .block ∧ s.phase ≠ .idle ∧ t.phase = .idle) ∨
    ∃ w, u = .write ctrlAddr w ∧ w.getLsbD 31 = false ∧ w.getLsbD 5 = true ∧
      (s.done = true ∨ (w.getLsbD 4 = true ∧ s.phase = .idle))) ∧
  (s.irq = true → t.irq = false →
    (∃ w, u = .write 2 w ∧ w.getLsbD 1 = true) ∨
    (∃ w, u = .write ctrlAddr w ∧ w.getLsbD 31 = false ∧
      (w.getLsbD 5 = false ∨ (w.getLsbD 4 = true ∧ s.phase = .idle))) ∨
    u.resets = true)

theorem irq_eq_true (s : State) : s.irq = true ↔ s.done = true ∧ s.ie = true := Bool.and_eq_true_iff

theorem irqMove_of_eq {u : Turn} {t : State} (h : t.irq = s.irq) : IrqMove u s t := by
  refine ⟨fun hs ht => ?_, fun hs ht => ?_⟩
  · cases hs.symm.trans (h.symm.trans ht)
  · cases hs.symm.trans (h.symm.trans ht)

theorem irqMove_reset {u : Turn} (hu : u.resets = true) (s : State) : IrqMove u s (resetBlock s) :=
  ⟨fun _ => nofun, fun _ _ => .inr (.inr hu)⟩

/-- A command's start rule is issued with the `IE` bit of its word. -/
theorem startOf_commandOf (c : BitVec 4) (ie : Bool) : (startOf (commandOf c ie)).map (fun x => x.2.1) = some ie := by
  revert c ie
  decide

theorem decodeWord_of_bit31 {v : Word} (h : v.getLsbD 31 = true) : decodeWord v = .srst := if_pos h

/-- A word that decodes to a command has `SRST` 0, `GO` 1 and the command's `IE` (30_encoding.md R140). -/
theorem bits_of_startOf {v : Word} {c : BitVec 4} {ie : Bool} {f : State → State}
    (h : startOf (decodeWord v) = some (c, ie, f)) :
    v.getLsbD 31 = false ∧ v.getLsbD 4 = true ∧ v.getLsbD 5 = ie := by
  cases hsrst : v.getLsbD 31
  · rw [decodeWord_of_getLsbD hsrst rfl rfl] at h
    split at h
    · next hgo =>
      have hie := startOf_commandOf (v.extractLsb' 0 4) (v.getLsbD 5)
      rw [h] at hie
      exact ⟨rfl, hgo, (Option.some.inj hie).symm⟩
    · cases h
  · rw [decodeWord_of_bit31 hsrst] at h
    cases h

/-- A word that decodes to CTRL_SET has `SRST` 0 and its `IE` (30_encoding.md R140). -/
theorem bits_of_ctrlSet {v : Word} {c : BitVec 4} {ie : Bool} (h : decodeWord v = .ctrlSet c ie) :
    v.getLsbD 31 = false ∧ v.getLsbD 5 = ie := by
  cases hsrst : v.getLsbD 31
  · rw [decodeWord_of_getLsbD hsrst rfl rfl] at h
    split at h
    · have hie := startOf_commandOf (v.extractLsb' 0 4) (v.getLsbD 5)
      rw [h] at hie
      cases hie
    · cases h
      exact ⟨rfl, rfl⟩
  · rw [decodeWord_of_bit31 hsrst] at h
    cases h

/-- A `CTRL` write that stores `ie` and leaves `DONE` (20_memory.md R82, 43_extension_points.md R285). -/
theorem irqMove_ctrl {v : Word} {ie : Bool} {t : State} (hsrst : v.getLsbD 31 = false) (hie : v.getLsbD 5 = ie)
    (hdone : t.done = s.done) (ht : t.ie = ie) : IrqMove (.write ctrlAddr v) s t := by
  refine ⟨fun _ hup => ?_, fun hs hdown => .inr (.inl ⟨v, rfl, hsrst, .inl ?_⟩)⟩
  · obtain ⟨hd, he⟩ := (irq_eq_true t).1 hup
    exact .inr ⟨v, rfl, hsrst, hie.trans (ht.symm.trans he), .inl (hdone.symm.trans hd)⟩
  · obtain ⟨hd, -⟩ := (irq_eq_true s).1 hs
    rw [State.irq, hdone, hd, Bool.true_and] at hdown
    exact hie.trans (ht.symm.trans hdown)

/-- A `CTRL` write that starts a command (20_memory.md R82). -/
theorem irqMove_start {v : Word} {c : BitVec 4} {ie : Bool} {f : State → State}
    (h : startOf (decodeWord v) = some (c, ie, f)) (hp : s.phase = .idle) :
    IrqMove (.write ctrlAddr v) s (endStep (f (prologue { s with ie := ie, cmd := c }))) := by
  obtain ⟨hsrst, hgo, hie⟩ := bits_of_startOf h
  obtain ⟨-, hkept, -⟩ := start_runsOrEnds h (prologue { s with ie := ie, cmd := c })
  refine ⟨fun _ hup => .inr ⟨v, rfl, hsrst, ?_, .inr ⟨hgo, hp⟩⟩, fun _ _ => .inr (.inl ⟨v, rfl, hsrst, .inr ⟨hgo, hp⟩⟩)⟩
  obtain ⟨-, he⟩ := (irq_eq_true _).1 hup
  exact hie.trans (hkept.symm.trans he)

theorem idleOnly_irq {store : State → State} (h : ∀ s, (store s).irq = s.irq) (s : State) :
    (idleOnly store s).irq = s.irq := by
  unfold idleOnly
  split
  · rfl
  · exact h s

theorem writeReg_irq {r : Reg} (hr : r ≠ .status) (v : Word) (s : State) : (writeReg r v s).irq = s.irq := by
  cases r
  case status => exact absurd rfl hr
  case argSession | argPort | argLport | argBudget | argAddr | txseg | rxlen | rxbuf =>
    exact idleOnly_irq (by exact fun _ => rfl) s
  all_goals rfl

/-- A `STATUS` write can clear `DONE` (20_memory.md R83). -/
theorem irqMove_status (v : Word) (s : State) : IrqMove (.write 2 v) s (writeStatus v s) := by
  have hirq : (writeStatus v s).irq = (s.irq && !v.getLsbD 1) := Bool.and_right_comm _ _ _
  refine ⟨fun hs hup => ?_, fun hs hdown => .inl ⟨v, rfl, ?_⟩⟩
  · rw [hirq, hs] at hup
    cases hup
  · simpa [hirq, hs] using hdown

/-- Of the plain register writes that of `STATUS`, at word address 2, alone reaches `IRQ`. -/
theorem irqMove_write (a : BitVec 8) (v : Word) (s : State) : IrqMove (.write a v) s (hostWrite a v s) := by
  unfold hostWrite
  cases hr : regOf s.params a with
  | none => exact irqMove_of_eq rfl
  | some r =>
    by_cases hstatus : r = .status
    · subst hstatus
      obtain ⟨hreg, -⟩ := regOf_eq_some.1 hr
      have hoff : 8 = 4 * a.toNat := offset_of_regAt hreg
      have ha : a = 2 := by bv_omega
      subst ha
      exact irqMove_status v s
    · exact irqMove_of_eq (writeReg_irq hstatus v s)

theorem irqMove_block (s : State) : IrqMove .block s (blockStep s) := by
  rcases blockStep_runsOrEnds s with e | ⟨c, hc, -, hie, ⟨hdone, -⟩ | ⟨hidle, hdone, -⟩⟩
  · exact irqMove_of_eq (congrArg State.irq e)
  · exact irqMove_of_eq (by rw [State.irq, State.irq, hdone, hie])
  · have hp : s.phase ≠ .idle := fun hp => by rw [hp] at hc; cases hc
    have hup : s.irq = true → (blockStep s).irq = true := fun hs =>
      let ⟨_, he⟩ := (irq_eq_true s).1 hs
      (irq_eq_true _).2 ⟨hdone, hie.trans he⟩
    exact ⟨fun _ _ => .inl ⟨rfl, hp, hidle⟩, fun hs hdown => by rw [hup hs] at hdown; cases hdown⟩

theorem step_irq {t : State} (hst : step s = .next t) : IrqMove (nextTurn s) (fetched s) t := by
  refine step_relates IrqMove ?read ?write ?busy ?start ?srst ?set ?wait ?respond ?deadline ?isn ?reset ?block hst
  case write => exact fun a v s _ => irqMove_write a v s
  case busy =>
    exact fun v c ie f s hs _ => let ⟨hsrst, _, hie⟩ := bits_of_startOf hs; irqMove_ctrl hsrst hie rfl rfl
  case start => exact fun v c ie f s hs hp => irqMove_start hs hp
  case srst => exact fun v s h => irqMove_reset (resets_srst h) s
  case set => exact fun v c ie s h => let ⟨hsrst, hie⟩ := bits_of_ctrlSet h; irqMove_ctrl hsrst hie rfl rfl
  case wait => exact fun s => irqMove_of_eq (pollDone_keeps s State.irq fun _ _ _ => rfl)
  case respond => exact fun r s => irqMove_of_eq (deliver_keeps r s State.irq fun _ _ => rfl)
  case reset => exact irqMove_reset rfl
  case block => exact irqMove_block
  all_goals intros; exact irqMove_of_eq rfl

/-- Settles O52, by the agent that moves: `DONE` is set by the block alone and cleared by a `STATUS` write, a start or a reset,
and `IE` is written by a `CTRL` write. -/
theorem interruptChangesOnlyAsListed : Obligations.InterruptChangesOnlyAsListed := fun _ _ hst => step_irq hst

end Sys2Proof.Machine
end

section
/-! PROOFS. Reset and hazards (70_reset_and_hazards.md): the response to a request a reset dropped (O16), and the free values of
the unwritten buffer bytes (O24). -/

namespace Sys2Proof.Machine

variable {s : State} {m : Memory}

/-! ## The dropped request (O16) -/

/-- A block just reset asks for nothing, so no response is delivered to it, and it is idle, so its step changes nothing. -/
theorem answer_resetBlock (r : Response) (s : State) : answer r (resetBlock s) = resetBlock s := by
  have hdeliver : deliver r (resetBlock s) = resetBlock s := deliver_eq_self fun ⟨_, _, hport⟩ => nomatch hport
  rw [answer, hdeliver, blockStep_idle rfl]

/-- Settles O16: both resets are the block's one reset. -/
theorem resetDropsTheOutstandingRequest : Obligations.ResetDropsTheOutstandingRequest := by
  intro s t r h
  have ht : t = resetBlock s := by rcases h with h | h <;> cases h <;> rfl
  subst ht
  exact ⟨rfl, rfl, answer_resetBlock r s⟩

/-! ## The free values of unwritten bytes (O24) -/

/-- Written bytes are read alike in every step. -/
theorem prefixBytes_of_written {n : Nat} (h : ∀ o, o < n → ∃ v, Memory.read m o = some v) (tick tick' : Nat) :
    Memory.prefixBytes m n tick = Memory.prefixBytes m n tick' := by
  refine List.map_congr_left fun o ho => ?_
  obtain ⟨v, hv⟩ := h o (List.mem_range.1 ho)
  rw [hv, Option.getD_some, Option.getD_some]

/-- A word of written bytes is read alike in every step. -/
theorem bufWord_of_written {k : Nat} (h : ∀ o, 4 * k ≤ o → o < 4 * k + 4 → ∃ v, Memory.read m o = some v)
    (tick tick' : Nat) : bufWord m k tick = bufWord m k tick' := by
  obtain ⟨b0, h0⟩ := h (4 * k) (by omega) (by omega)
  obtain ⟨b1, h1⟩ := h (4 * k + 1) (by omega) (by omega)
  obtain ⟨b2, h2⟩ := h (4 * k + 2) (by omega) (by omega)
  obtain ⟨b3, h3⟩ := h (4 * k + 3) (by omega) (by omega)
  rw [bufWord_written tick h0 h1 h2 h3, bufWord_written tick' h0 h1 h2 h3]

/-- Over written bytes the start rule of DECODE does not read the step's number. -/
theorem startDecode_withTick (h : ∀ o, o < s.rxlen.toNat → ∃ v, Memory.read s.rxbuf o = some v) (n : Nat) :
    startDecode { s with tick := n } = { startDecode s with tick := n } := by
  have hvalid : rxValid { s with tick := n } = rxValid s := prefixBytes_of_written h n s.tick
  cases hd : decodeFn (rxValid s) with
  | none => rw [startDecode_malformed hd, startDecode_malformed (hvalid ▸ hd)]; rfl
  | some d => rw [startDecode_decodes hd, startDecode_decodes (hvalid ▸ hd)]; rfl

/-- Over written bytes DECODE answers the same next state, but for the step's number, in every step: a busy block refuses it,
and an idle one runs its start rule. -/
theorem exec_decode_withTick (ie : Bool) (h : ∀ o, o < s.rxlen.toNat → ∃ v, Memory.read s.rxbuf o = some v) (n : Nat) :
    ∃ t, exec (.decode ie) s = .next t ∧ exec (.decode ie) { s with tick := n } = .next { t with tick := n } := by
  by_cases hp : s.phase = .idle
  · refine ⟨_, exec_idle rfl hp, ?_⟩
    have hstart := startDecode_withTick (s := prologue { s with ie := ie, cmd := 0x2 }) h n
    have hagain := exec_idle (i := .decode ie) (s := { s with tick := n }) rfl hp
    exact hagain.trans (congrArg (fun u => Host.Outcome.next (endStep u)) hstart)
  · exact ⟨_, exec_busy rfl hp, exec_busy rfl hp⟩

/-- Outside the two buffers no register's word depends on the step's number. -/
theorem readReg_withTick {r : Reg} (htx : ∀ k, r ≠ .txbuf k) (hrx : ∀ k, r ≠ .rxbuf k) (s : State) (n : Nat) :
    readReg r { s with tick := n } = readReg r s := by
  cases r
  case txbuf k => exact absurd rfl (htx k)
  case rxbuf k => exact absurd rfl (hrx k)
  all_goals rfl

/-- Settles O24: a free value stands in only for an unwritten byte, and no other register holds one. -/
theorem drawsMatterOnlyForUnwrittenBytes : Obligations.DrawsMatterOnlyForUnwrittenBytes :=
  ⟨fun ie _ n h => exec_decode_withTick ie h n, fun s n _ h => bufWord_of_written h n s.tick,
    fun s n _ h => bufWord_of_written h n s.tick, fun s n _ htx hrx => readReg_withTick htx hrx s n⟩

end Sys2Proof.Machine
end
